-- ==== Sys2Proof/Word.lean ====
section
/-! DEFINITION. The word types of the RC-link block: byte, channel value, command word, channel vector. -/

namespace Sys2Proof

/-- One byte of a buffer, of the running CRC or of a frame (R14, R19). -/
abbrev Byte := BitVec 8

/-- One channel value: 11 bits, 0..2047 (R12, parameter `CHW` of R4). -/
abbrev Chan := BitVec 11

/-- The 32-bit command word, and the 32-bit `data` of a response (R43, R47). -/
abbrev Word := BitVec 32

/-- A ChannelVector: sixteen channel registers (R12, R13). -/
abbrev ChanVec := Vector Chan 16

end Sys2Proof
end

