-- ==== Sys2Proof/Syntax.lean ====
section
/-! DEFINITION. The twenty commands (R46), the names of the numbered registers (R16) and of the memory spaces (R30).

An index operand (register, space, channel, axis number) and an element offset are counts, so they are `Nat`;
`WellFormed` says which of them fit their field. A sample or register value is the 16-bit immediate as it stands in the
word: what it means is the command's (R45), so it stays a bit vector. -/

namespace Sys2Proof

/-- One command of the command port, one constructor for each row of the opcode map (R46). -/
inductive Instr where
  /-- `NOP` (R53) -/
  | nop
  /-- `RESET` (R54) -/
  | reset
  /-- `RD r` (R55): `r` a register number -/
  | rd (r : Nat)
  /-- `WR r, v` (R56): `r` a register number, `v` the 16-bit immediate -/
  | wr (r : Nat) (v : BitVec 16)
  /-- `RDM s, off` (R57): `sp` a space number, `off` an element offset -/
  | rdm (sp : Nat) (off : Nat)
  /-- `CRC.INIT` (R64) -/
  | crcInit
  /-- `CRC.UPD b` (R65): `b` the data byte -/
  | crcUpd (b : Byte)
  /-- `CH.SET c, v` (R82): `c` a channel, `v` the 16-bit immediate -/
  | chSet (c : Nat) (v : BitVec 16)
  /-- `CH.BTN c, p` (R101): `c` a channel, `p` true when pressed -/
  | chBtn (c : Nat) (p : Bool)
  /-- `ENC` (R77) -/
  | enc
  /-- `RX.CLR` (R79) -/
  | rxClr
  /-- `RX.PUSH b` (R80): `b` the received byte -/
  | rxPush (b : Byte)
  /-- `DEC` (R78) -/
  | dec
  /-- `UNPK` (R81) -/
  | unpk
  /-- `SHP.AX a, x` (R99): `a` an axis, `x` the 16-bit sample -/
  | shpAx (a : Nat) (x : BitVec 16)
  /-- `SHP.TRG c, x` (R100): `c` a channel, `x` the 16-bit sample -/
  | shpTrg (c : Nat) (x : BitVec 16)
  /-- `SCH.PUB` (R111) -/
  | schPub
  /-- `SCH.START` (R120) -/
  | schStart
  /-- `SCH.CANCEL` (R121) -/
  | schCancel
  /-- `SCH.PCLOSE` (R122) -/
  | schPclose
deriving DecidableEq, Repr

/-- The numbered registers of R17 to R24. -/
inductive Reg where
  /-- `DZ0..DZ3` (R17) -/
  | dz (a : Fin 4)
  /-- `EXPO0..EXPO3` (R17) -/
  | expo (a : Fin 4)
  /-- the shaper's and the scheduler's other configuration (R17, R18) -/
  | tdz | rev | rate | failThr | statIvl | ien
  /-- the datapath results (R19) -/
  | crc | shpY
  /-- the codec status (R20) -/
  | rxlen | cstat | derr | rtype | rplen
  /-- the scheduler state, counters and timer, and the event register (R21 to R24) -/
  | sstate | sflags | failCnt | totalSent | statCnt | tmr | period | evt
deriving DecidableEq, Repr

/-- The nine memory spaces of R30. -/
inductive Space where
  | ch | uch | mbx | out | ebuf | txbuf | rxbuf | crcTab | cube
deriving DecidableEq, Repr

end Sys2Proof
end

