-- ==== Sys2Proof/WellFormed.lean ====
section
/-! DEFINITION. When a command can be written as a command word: each operand fits the field its format gives it (R43, R44).
That an index names something that exists is not asked here: the machine checks it and answers `BADIDX` (R47). -/

namespace Sys2Proof

/-- `idx` is the eight bits `w[23:16]` (R43). -/
def fitsIdx (n : Nat) : Bool := decide (n < 256)

/-- An offset is the sixteen bits `w[15:0]` (R43, R45). -/
def fitsImm (n : Nat) : Bool := decide (n < 65536)

/-- Every operand of the command fits its field. -/
def Instr.wellFormed : Instr → Bool
  | .nop => true
  | .reset => true
  | .rd r => fitsIdx r
  | .wr r _ => fitsIdx r
  | .rdm sp off => fitsIdx sp && fitsImm off
  | .crcInit => true
  | .crcUpd _ => true
  | .chSet c _ => fitsIdx c
  | .chBtn c _ => fitsIdx c
  | .enc => true
  | .rxClr => true
  | .rxPush _ => true
  | .dec => true
  | .unpk => true
  | .shpAx a _ => fitsIdx a
  | .shpTrg c _ => fitsIdx c
  | .schPub => true
  | .schStart => true
  | .schCancel => true
  | .schPclose => true

end Sys2Proof
end

