-- ==== Sys2Proof/Decode.lean ====
section
/-! DEFINITION. The decoder and the encoder of the 32-bit command word (R43 to R46, R48, R52). -/

namespace Sys2Proof

/-- The five formats of R44. -/
inductive Format where
  | n | x | i8 | xb | xi
deriving DecidableEq, Repr

/-- The bits of the word below the opcode that a format reserves (R44, R52). -/
def Format.reservedMask : Format → Word
  | .n  => 0x00FFFFFF#32
  | .x  => 0x0000FFFF#32
  | .i8 => 0x00FFFF00#32
  | .xb => 0x0000FFFE#32
  | .xi => 0x00000000#32

/-- One row of the opcode map of R46: the opcode, the format, and the command it makes of the fields `idx` and `imm`. -/
structure OpRow where
  op     : BitVec 8
  format : Format
  make   : BitVec 8 → BitVec 16 → Instr

/-- Group 0x0 of R46: host access. -/
def hostRows : List OpRow :=
  [⟨0x00#8, .n,  fun _ _ => .nop⟩,
   ⟨0x01#8, .n,  fun _ _ => .reset⟩,
   ⟨0x02#8, .x,  fun idx _ => .rd idx.toNat⟩,
   ⟨0x03#8, .xi, fun idx imm => .wr idx.toNat imm⟩,
   ⟨0x04#8, .xi, fun idx imm => .rdm idx.toNat imm.toNat⟩]

/-- Group 0x1 of R46: the CRC unit. -/
def crcRows : List OpRow :=
  [⟨0x10#8, .n,  fun _ _ => .crcInit⟩,
   ⟨0x11#8, .i8, fun _ imm => .crcUpd (imm.extractLsb' 0 8)⟩]

/-- Group 0x2 of R46: channel staging and the codec. -/
def codecRows : List OpRow :=
  [⟨0x20#8, .xi, fun idx imm => .chSet idx.toNat imm⟩,
   ⟨0x21#8, .xb, fun idx imm => .chBtn idx.toNat (imm.getLsbD 0)⟩,
   ⟨0x22#8, .n,  fun _ _ => .enc⟩,
   ⟨0x23#8, .n,  fun _ _ => .rxClr⟩,
   ⟨0x24#8, .i8, fun _ imm => .rxPush (imm.extractLsb' 0 8)⟩,
   ⟨0x25#8, .n,  fun _ _ => .dec⟩,
   ⟨0x26#8, .n,  fun _ _ => .unpk⟩]

/-- Group 0x3 of R46: the shaper. -/
def shaperRows : List OpRow :=
  [⟨0x30#8, .xi, fun idx imm => .shpAx idx.toNat imm⟩,
   ⟨0x31#8, .xi, fun idx imm => .shpTrg idx.toNat imm⟩]

/-- Group 0x4 of R46: the scheduler. -/
def schedRows : List OpRow :=
  [⟨0x40#8, .n,  fun _ _ => .schPub⟩,
   ⟨0x41#8, .n,  fun _ _ => .schStart⟩,
   ⟨0x42#8, .n,  fun _ _ => .schCancel⟩,
   ⟨0x43#8, .n,  fun _ _ => .schPclose⟩]

/-- The opcode map (R46). -/
def opcodeMap : List OpRow := hostRows ++ crcRows ++ codecRows ++ shaperRows ++ schedRows

/-- What the decoder finds in a command word (R52). -/
inductive Verdict where
  /-- the word is this command -/
  | command (i : Instr)
  /-- the opcode is not in the map: the response is `ILLEGAL` (R48) -/
  | illegal
  /-- the opcode is known and a bit its format reserves is 1: the response is `RSVD` (R48) -/
  | reserved
deriving DecidableEq, Repr

/-- `op = w[31:24]` (R43). -/
def opField (w : Word) : BitVec 8 := w.extractLsb' 24 8

/-- `idx = w[23:16]` (R43). -/
def idxField (w : Word) : BitVec 8 := w.extractLsb' 16 8

/-- `imm = w[15:0]` (R43). -/
def immField (w : Word) : BitVec 16 := w.extractLsb' 0 16

/-- The row of the opcode map with this opcode, all eight bits matched (R46). -/
def findRow (op : BitVec 8) : Option OpRow := opcodeMap.find? (fun row => row.op == op)

/-- The total decoder of R52. -/
def decode (w : Word) : Verdict :=
  match findRow (opField w) with
  | none => .illegal
  | some row =>
    if w &&& row.format.reservedMask ≠ 0#32 then .reserved
    else .command (row.make (idxField w) (immField w))

/-- The opcode of a command (R46). -/
def Instr.opcode : Instr → BitVec 8
  | .nop => 0x00#8
  | .reset => 0x01#8
  | .rd _ => 0x02#8
  | .wr _ _ => 0x03#8
  | .rdm _ _ => 0x04#8
  | .crcInit => 0x10#8
  | .crcUpd _ => 0x11#8
  | .chSet _ _ => 0x20#8
  | .chBtn _ _ => 0x21#8
  | .enc => 0x22#8
  | .rxClr => 0x23#8
  | .rxPush _ => 0x24#8
  | .dec => 0x25#8
  | .unpk => 0x26#8
  | .shpAx _ _ => 0x30#8
  | .shpTrg _ _ => 0x31#8
  | .schPub => 0x40#8
  | .schStart => 0x41#8
  | .schCancel => 0x42#8
  | .schPclose => 0x43#8

/-- The `idx` field of a command's word; 0 where the format has none (R44, R46). -/
def Instr.idxOperand : Instr → BitVec 8
  | .rd r => BitVec.ofNat 8 r
  | .wr r _ => BitVec.ofNat 8 r
  | .rdm sp _ => BitVec.ofNat 8 sp
  | .chSet c _ => BitVec.ofNat 8 c
  | .chBtn c _ => BitVec.ofNat 8 c
  | .shpAx a _ => BitVec.ofNat 8 a
  | .shpTrg c _ => BitVec.ofNat 8 c
  | .nop | .reset | .crcInit | .crcUpd _ | .enc | .rxClr | .rxPush _ | .dec | .unpk
  | .schPub | .schStart | .schCancel | .schPclose => 0#8

/-- The `imm` field of a command's word; 0 where the format has none (R44, R46). -/
def Instr.immOperand : Instr → BitVec 16
  | .wr _ v => v
  | .rdm _ off => BitVec.ofNat 16 off
  | .crcUpd b => b.setWidth 16
  | .chSet _ v => v
  | .chBtn _ p => (BitVec.ofBool p).setWidth 16
  | .rxPush b => b.setWidth 16
  | .shpAx _ x => x
  | .shpTrg _ x => x
  | .nop | .reset | .rd _ | .crcInit | .enc | .rxClr | .dec | .unpk
  | .schPub | .schStart | .schCancel | .schPclose => 0#16

/-- The encoder, the inverse of the decoder: `w = op * 2^24 + idx * 2^16 + imm` (R52), which is `{op, idx, imm}` in the
concatenation notation of R5. -/
def encode (i : Instr) : Word := i.opcode ++ i.idxOperand ++ i.immOperand

/-- The instruction the decoder reads from a row of the opcode table. The command word is a value on a port and not a
string of bytes (`91_not_in_source.md` N22), so its bit `k` is bit `k` of `w`; bits at or above `nbits` are 0. -/
def decodeTableWord (nbits w : Nat) : Option Instr :=
  match decode (BitVec.ofNat 32 (w % 2 ^ nbits)) with
  | .command i => some i
  | .illegal => none
  | .reserved => none

end Sys2Proof
end

