-- ==== Sys2Proof/Config.lean ====
section
/-! DEFINITION. The implementation parameters of R4, each at the value the spec fixes for it. The one open parameter,
`T_TB` (the real duration of a timebase pulse), is read by no rule (R4, R150) and so has no constant here. -/

namespace Sys2Proof

/-- `SYNC`, the first byte of every frame (R4, R70). -/
abbrev Config.sync : Byte := 0xC8#8

/-- `TYPE_RC`, the type byte of the RC channel frame (R4, R71). -/
abbrev Config.typeRc : Byte := 0x16#8

/-- `LEN_RC`, the length byte of the RC channel frame: 1 + 22 + 1 = 24 (R4, R71). -/
abbrev Config.lenRc : Byte := 0x18#8

/-- The size of the RC channel frame, and of `EBUF` and `TXBUF` (R4, R14). -/
abbrev Config.rcFrameSize : Nat := 26

/-- The size of a packed channel payload: 16 channels of 11 bits are 176 bits are 22 bytes (R72). -/
abbrev Config.packedSize : Nat := 22

/-- `FRAME_MAX`, the size of the receive buffer (R4, R14). -/
abbrev Config.frameMax : Nat := 64

/-- `LEN_MIN`, the least length byte the decoder accepts (R4, R75 step 3). -/
abbrev Config.lenMin : Nat := 2

/-- `LEN_MAX`, the greatest length byte the decoder accepts (R4, R75 step 3). -/
abbrev Config.lenMax : Nat := 62

/-- The CRC generator polynomial with its x^8 term implicit (R4, R60). -/
abbrev Config.crcPoly : Byte := 0xD5#8

/-- `ONE`: 1.0 in the Q14 format (R4, R89). -/
abbrev Config.one : Nat := 16384

/-- `DZ_MAX`: the greatest deadzone, 0.25 in Q14 (R4, R17). -/
abbrev Config.dzMax : Nat := 4096

/-- `EXPO_MAX`: the greatest expo, 1.0 in Q14 (R4, R17). -/
abbrev Config.expoMax : Nat := 16384

/-- The greatest channel value (R4, R12). -/
abbrev Config.chanMax : Nat := 2047

/-- Timebase pulses per second: `PERIOD = 1000000 // RATE` (R4, R112). -/
abbrev Config.tbPerSecond : Nat := 1000000

/-- The neutral channel value (R4, R27). -/
abbrev Config.neutral : Chan := 1024#11

/-- The default rate in frames per second, the reset value of `RATE` (R4, R18). -/
abbrev Config.rateReset : BitVec 16 := 250#16

/-- The failure-warning threshold at reset (R4, R18). -/
abbrev Config.failThrReset : BitVec 16 := 10#16

/-- The status interval at reset (R4, R18). -/
abbrev Config.statIvlReset : BitVec 16 := 250#16

end Sys2Proof
end

