-- ==== Sys2Proof/Machine/Memory.lean ====
section
/-! DEFINITION. The byte memory of a buffer (R14, R30): a list of (index, byte) pairs in one canonical form, indices strictly
rising and no entry equal to what an unlisted index reads as. `EBUF`, `TXBUF` and `RXBUF` are one such memory each, indexed
by element number from 0 as R30 has it; an index at or beyond a buffer's size is refused where the host's index comes in
(`spaceRead`). -/

namespace Sys2Proof.Machine

/-- A byte buffer's contents. -/
abbrev Memory := List Host.Cell

/-- What an unlisted index reads as: the reset value of every byte of every buffer (R14, R27). -/
def Memory.unlisted : Byte := 0x00#8

/-- The byte at an index. -/
def Memory.read : Memory → Nat → Byte
  | [], _ => Memory.unlisted
  | (k, v) :: m, a => if k = a then v else Memory.read m a

/-- Store one byte, keeping the canonical form: the value an unlisted index reads as is not listed. -/
def Memory.write : Memory → Nat → Byte → Memory
  | [], a, b => if b = Memory.unlisted then [] else [(a, b)]
  | (k, v) :: m, a, b =>
    if a < k then (if b = Memory.unlisted then (k, v) :: m else (a, b) :: (k, v) :: m)
    else if a = k then (if b = Memory.unlisted then m else (a, b) :: m)
    else (k, v) :: Memory.write m a b

/-- Store a list of bytes from an index up. -/
def Memory.writeBytes : Memory → Nat → List Byte → Memory
  | m, _, [] => m
  | m, a, b :: bs => Memory.writeBytes (Memory.write m a b) (a + 1) bs

/-- `SP <- list` (R5): the buffer rewritten whole, "never in part" (R14). -/
def Memory.ofBytes (bs : List Byte) : Memory := Memory.writeBytes [] 0 bs

/-- `SP[a .. a+n)` (R5). -/
def Memory.readBytes (m : Memory) (a n : Nat) : List Byte := (List.range n).map (fun k => Memory.read m (a + k))

/-- Every listed index is above `lo`, in rising order, and lists no unlisted byte. -/
def Memory.risesFrom : Nat → Memory → Bool
  | _, [] => true
  | lo, (k, v) :: m => decide (lo ≤ k) && decide (v ≠ Memory.unlisted) && Memory.risesFrom (k + 1) m

/-- The canonical form. -/
def Memory.wf (m : Memory) : Bool := Memory.risesFrom 0 m

/-- Every listed index is below the buffer's size (R14). -/
def Memory.within (m : Memory) (size : Nat) : Bool := m.all (fun cell => decide (cell.1 < size))

end Sys2Proof.Machine
end

