-- ==== Sys2Proof/Machine/Codec.lean ====
section
/-! DEFINITION. The codec's functions (R70 to R75): the packer, the unpacker, the RC channel frame, and the frame check. -/

namespace Sys2Proof.Machine

/-- The result code of `DEC`, register `DERR` (R20, R75). -/
inductive DecErr where
  | ok | short | sync | len | trunc | crc
deriving DecidableEq, Repr

/-- The 176-bit stream of a channel vector: channel `i` occupies bits [11i, 11i+11) (R32, R72). -/
def packStream (v : ChanVec) : Nat :=
  (List.finRange 16).foldl (fun stream i => stream ||| (v[i].toNat <<< (11 * i.val))) 0

/-- The 22 payload bytes of a channel vector: byte `k` holds stream bits [8k, 8k+8) (R72). -/
def pack (v : ChanVec) : List Byte :=
  (List.range Config.packedSize).map (fun k => BitVec.ofNat 8 (packStream v >>> (8 * k)))

/-- The 176-bit stream of the first 22 bytes of a payload (R73). -/
def unpackStream (p : List Byte) : Nat :=
  (List.range Config.packedSize).foldl (fun stream k => stream ||| ((p.getD k 0x00#8).toNat <<< (8 * k))) 0

/-- The sixteen channels of the first 22 bytes of a payload (R73). -/
def unpack (p : List Byte) : ChanVec :=
  Vector.ofFn (fun i : Fin 16 => BitVec.ofNat 11 (unpackStream p >>> (11 * i.val)))

/-- The bytes the CRC of the RC channel frame covers: length, type and payload (R70, R74). -/
def frameBody (v : ChanVec) : List Byte := Config.lenRc :: Config.typeRc :: pack v

/-- The 26 bytes of the RC channel frame (R71, R74). -/
def frame (v : ChanVec) : List Byte := Config.sync :: (frameBody v ++ [crc8 (frameBody v)])

/-- What the frame check finds: the error code, the type byte and the payload length (R75). -/
structure DecodeResult where
  err  : DecErr
  type : Byte
  plen : Nat
deriving DecidableEq, Repr

/-- A failed check: no type and no payload length ("no partial records", R75, D17). -/
def DecodeResult.failed (e : DecErr) : DecodeResult := ⟨e, 0x00#8, 0⟩

/-- The frame check on a buffer, the checks in the order of R75. -/
def decodeFrame (buf : List Byte) : DecodeResult :=
  if buf.length < 4 then .failed .short
  else if buf.getD 0 0x00#8 ≠ Config.sync then .failed .sync
  else
    let len := (buf.getD 1 0x00#8).toNat
    if len < Config.lenMin ∨ Config.lenMax < len then .failed .len
    else if buf.length < 2 + len then .failed .trunc
    else if crc8 ((buf.drop 1).take len) ≠ buf.getD (1 + len) 0x00#8 then .failed .crc
    else ⟨.ok, buf.getD 2 0x00#8, len - 2⟩

end Sys2Proof.Machine
end

