-- ==== Sys2Proof/Machine/State.lean ====
section
/-! DEFINITION. The state of the RC-link block (R10): the channel files, the byte buffers, the numbered registers and flags;
beside them the model's own two fields, the inputs the environment presents (R6, R135) and the trace of outputs (R10). -/

namespace Sys2Proof.Machine

/-- The scheduler state, register `SSTATE` (R21, R110). -/
inductive SState where
  | stopped | wait | send | exitCancel | exitFatal
deriving DecidableEq, Repr

/-- The status of a response (R47). -/
inductive Status where
  | ok | illegal | rsvd | badIdx | refused | rdOnly
deriving DecidableEq, Repr

/-- The five events of the scheduler (R119, R132). -/
inductive Event where
  | status | failLow | failWarn | exitCancel | exitFatal
deriving DecidableEq, Repr

/-- An output of a step (R10): the response to a command (R47), an event pulse (R119), or `TX_REQ` with its frame (R115). -/
inductive Output where
  | response (status : Status) (data : Word)
  | event (e : Event)
  | txReq (frame : List Byte)
deriving DecidableEq, Repr

/-- One input of the block: what one step takes (R6). -/
inductive Input where
  /-- the `hreset` pin (R140) -/
  | hreset
  /-- a transport result, `true` for `TXR(ok)` (R116, R117) -/
  | txr (ok : Bool)
  /-- one timebase pulse (R113) -/
  | tb
  /-- one command word on the command port (R43) -/
  | command (w : Word)
deriving DecidableEq, Repr

/-- What the environment presents to the block at one instant, each on its own port (R126, R135, R141). -/
structure Arrival where
  hreset : Bool
  txr    : Option Bool
  tb     : Bool
  cmd    : Option Word
deriving DecidableEq, Repr

/-- Why the machine stops with a fault: never. "No operation of the block traps, aborts, halts the block or leaves a partial
result" (R130), so the closed list of faults is empty. Nothing raises one, and that is safe. -/
inductive Fault where
deriving DecidableEq, Repr

/-- Why the machine refuses an instruction. -/
inductive Refusal where
  /-- An instruction without a meaning yet, raised by `exec`'s arm for it and by nothing else. Every instruction of this
  block has its meaning, so nothing raises it; it is safe, since the machine would stop. -/
  | notModelled (mnemonic : String)
deriving DecidableEq, Repr

/-- The whole state (R10), and the model's `inputs` and `trace`. -/
structure State where
  /-- `CH[0..15]`, the staging vector (R12) -/
  ch : ChanVec
  /-- `UCH[0..15]`, the last unpacked vector (R13) -/
  uch : ChanVec
  /-- `MBX[0..15]`, the mailbox (R13) -/
  mbx : ChanVec
  /-- `OUT[0..15]`, the scheduler's output vector (R13) -/
  out : ChanVec
  /-- `EBUF[0..25]` (R14) -/
  ebuf : Memory
  /-- `TXBUF[0..25]` (R14) -/
  txbuf : Memory
  /-- `RXBUF[0..63]` (R14) -/
  rxbuf : Memory
  /-- `DZ0..DZ3` (R17) -/
  dz : Vector (BitVec 13) 4
  /-- `EXPO0..EXPO3` (R17) -/
  expo : Vector (BitVec 15) 4
  /-- `TDZ` (R17) -/
  tdz : BitVec 13
  /-- `REV` (R17) -/
  rev : BitVec 16
  /-- `RATE` (R18) -/
  rate : BitVec 16
  /-- `FAIL_THR` (R18) -/
  failThr : BitVec 16
  /-- `STAT_IVL` (R18) -/
  statIvl : BitVec 16
  /-- `IEN` (R18) -/
  ien : BitVec 5
  /-- `CRC` (R19) -/
  crc : Byte
  /-- `SHP_Y`, the 16-bit two's complement pattern (R19) -/
  shpY : BitVec 16
  /-- `RXLEN` (R20) -/
  rxlen : BitVec 7
  /-- `CSTAT.EVALID` (R20) -/
  evalid : Bool
  /-- `CSTAT.DVALID` (R20) -/
  dvalid : Bool
  /-- `CSTAT.RXOVF` (R20) -/
  rxovf : Bool
  /-- `DERR` (R20) -/
  derr : DecErr
  /-- `RTYPE` (R20) -/
  rtype : Byte
  /-- `RPLEN` (R20) -/
  rplen : BitVec 6
  /-- `SSTATE` (R21) -/
  sstate : SState
  /-- `SFLAGS.MBX_DIRTY` (R21) -/
  mbxDirty : Bool
  /-- `SFLAGS.TICK_PEND` (R21) -/
  tickPend : Bool
  /-- `SFLAGS.CANCEL_PEND` (R21) -/
  cancelPend : Bool
  /-- `SFLAGS.FATAL_PEND` (R21) -/
  fatalPend : Bool
  /-- `FAIL_CNT` (R22) -/
  failCnt : BitVec 16
  /-- `TOTAL_SENT` (R22) -/
  totalSent : BitVec 32
  /-- `STAT_CNT` (R22) -/
  statCnt : BitVec 16
  /-- `TMR` (R23) -/
  tmr : BitVec 20
  /-- `EVT` (R24) -/
  evt : BitVec 5
  /-- the model's own: what the environment presents, instant by instant, the present instant first (log entry 1) -/
  inputs : List Arrival
  /-- the model's own: every output so far, in the order emitted; no rule reads it (R10, log entry 2) -/
  trace : List Output
deriving DecidableEq, Repr

/-- The state after reset (R27, R140), with nothing presented and nothing emitted yet. -/
def State.reset : State where
  ch := Vector.replicate 16 Config.neutral
  uch := Vector.replicate 16 0#11
  mbx := Vector.replicate 16 Config.neutral
  out := Vector.replicate 16 Config.neutral
  ebuf := []
  txbuf := []
  rxbuf := []
  dz := Vector.replicate 4 0#13
  expo := Vector.replicate 4 0#15
  tdz := 0#13
  rev := 0#16
  rate := Config.rateReset
  failThr := Config.failThrReset
  statIvl := Config.statIvlReset
  ien := 0#5
  crc := 0x00#8
  shpY := 0#16
  rxlen := 0#7
  evalid := false
  dvalid := false
  rxovf := false
  derr := .ok
  rtype := 0x00#8
  rplen := 0#6
  sstate := .stopped
  mbxDirty := false
  tickPend := false
  cancelPend := false
  fatalPend := false
  failCnt := 0#16
  totalSent := 0#32
  statCnt := 0#16
  tmr := 0#20
  evt := 0#5
  inputs := []
  trace := []

end Sys2Proof.Machine
end

