-- ==== Sys2Proof/Machine/Arbiter.lean ====
section
/-! DEFINITION. Which input the next step takes (R6, R135). -/

namespace Sys2Proof.Machine

/-- The next input and what is still presented after it. Of the inputs presented at one instant the order is `HRESET`, `TXR`,
`TB`, host command (R135); an instant at which nothing is presented is no step (R6). -/
def takeInput : List Arrival → Option (Input × List Arrival)
  | [] => none
  | a :: later =>
    if a.hreset then some (.hreset, { a with hreset := false } :: later)
    else
      match a.txr with
      | some ok => some (.txr ok, { a with txr := none } :: later)
      | none =>
        if a.tb then some (.tb, { a with tb := false } :: later)
        else
          match a.cmd with
          | some w => some (.command w, later)
          | none => takeInput later

/-- An instant at which the host alone presents a command word. -/
def Arrival.ofCommand (w : Word) : Arrival := ⟨false, none, false, some w⟩

/-- An instant at which the timebase alone pulses. -/
def Arrival.ofTb : Arrival := ⟨false, none, true, none⟩

/-- An instant at which the transport alone answers. -/
def Arrival.ofTxr (ok : Bool) : Arrival := ⟨false, some ok, false, none⟩

/-- An instant at which only the reset pin is asserted. -/
def Arrival.ofHreset : Arrival := ⟨true, none, false, none⟩

end Sys2Proof.Machine
end

