-- ==== Sys2Proof/Machine/Curve.lean ====
section
/-! DEFINITION. The shaper's functions on integers (R89 to R97) and the reversal of a channel value (R102). Every quantity is
an exact `Nat` or `Int`, as R5 has the arithmetic of the pseudocode; a register narrows a value only where it is stored. -/

namespace Sys2Proof.Machine

/-- `clamp(v, lo, hi)` (R5). -/
def clampInt (v lo hi : Int) : Int := min (max v lo) hi

/-- Deadzone rescale of a magnitude (R90). -/
def dzscale (m dz : Nat) : Nat :=
  if m ≤ dz then 0 else ((m - dz) * 2 ^ 14) / (Config.one - dz)

/-- Entries 0 to 7 of the table of R91. -/
def cubeRow0 : List Nat := [0, 0, 1, 2, 4, 8, 14, 21]

/-- Entries 8 to 15 of the table of R91. -/
def cubeRow1 : List Nat := [32, 46, 63, 83, 108, 137, 172, 211]

/-- Entries 16 to 23 of the table of R91. -/
def cubeRow2 : List Nat := [256, 307, 365, 429, 500, 579, 666, 760]

/-- Entries 24 to 31 of the table of R91. -/
def cubeRow3 : List Nat := [864, 977, 1099, 1230, 1372, 1524, 1688, 1862]

/-- Entries 32 to 39 of the table of R91. -/
def cubeRow4 : List Nat := [2048, 2246, 2457, 2680, 2916, 3166, 3430, 3707]

/-- Entries 40 to 47 of the table of R91. -/
def cubeRow5 : List Nat := [4000, 4308, 4631, 4969, 5324, 5695, 6084, 6489]

/-- Entries 48 to 55 of the table of R91. -/
def cubeRow6 : List Nat := [6912, 7353, 7813, 8291, 8788, 9305, 9842, 10398]

/-- Entries 56 to 63 of the table of R91. -/
def cubeRow7 : List Nat := [10976, 11575, 12195, 12836, 13500, 14186, 14896, 15628]

/-- `CUBE[0..64]` as printed in R91. -/
def cubeTable : List Nat :=
  cubeRow0 ++ cubeRow1 ++ cubeRow2 ++ cubeRow3 ++ cubeRow4 ++ cubeRow5 ++ cubeRow6 ++ cubeRow7 ++ [16384]

/-- `CUBE[j]` for `j` in 0..64 (R15, R91). -/
def cubeTab (j : Nat) : Nat := cubeTable.getD j 0

/-- The cube of a magnitude by interpolation between knots 256 apart (R92). -/
def cube (r : Nat) : Nat :=
  if r / 2 ^ 8 = 64 then cubeTab 64
  else cubeTab (r / 2 ^ 8) + ((cubeTab (r / 2 ^ 8 + 1) - cubeTab (r / 2 ^ 8)) * (r % 2 ^ 8)) / 2 ^ 8

/-- The expo blend of a magnitude and its cube, rounded half up (R93). -/
def blend (r c e : Nat) : Nat := ((Config.one - e) * r + e * c + 8192) / 2 ^ 14

/-- Steps 3 to 6 of `shape_axis`: the curve of a magnitude (R94). -/
def shapeMagnitude (m dz e : Nat) : Nat := blend (dzscale m dz) (cube (dzscale m dz)) e

/-- The signed axis curve of a sample already saturated to −16384..16384: the curve of the magnitude, the sign reattached
last (R94). -/
def shapeSigned (xs : Int) (dz e : Nat) : Int :=
  if xs < 0 then -(shapeMagnitude xs.natAbs dz e : Int) else (shapeMagnitude xs.natAbs dz e : Int)

/-- Signed value to channel, rounded half up (R95). -/
def mapS (y : Int) : Nat := ((2047 * (y + 16384) + 16384) / 2 ^ 15).toNat

/-- Unsigned value to channel, rounded half up (R96). -/
def mapU (t : Nat) : Nat := (2047 * t + 8192) / 2 ^ 14

/-- A channel value after reversal: `2047 − v` when the channel's bit of `REV` is 1 (R102). -/
def reverseChan (reversed : Bool) (v : Chan) : Chan := if reversed then 2047#11 - v else v

/-- `rev(i, CH[i])` for all sixteen channels (R102, R111). -/
def reverseVec (rev : BitVec 16) (v : ChanVec) : ChanVec :=
  Vector.ofFn (fun i : Fin 16 => reverseChan (rev.getLsbD i.val) v[i])

end Sys2Proof.Machine
end

