-- ==== Sys2Proof/Machine/Operands.lean ====
section
/-! DEFINITION. How each command's operands are read (R45): the immediates with their sign and clamp, and the names behind
register, space, channel and axis numbers. A number that names nothing gives `none`, which the command answers with
`BADIDX` (R47). -/

namespace Sys2Proof.Machine

/-- `sext_16(v)` (R5). -/
def sext16 (v : BitVec 16) : Int := v.toInt

/-- `tc16(y)` (R5). -/
def tc16 (y : Int) : BitVec 16 := BitVec.ofInt 16 y

/-- The value `WR` stores in `DZ0..DZ3` and `TDZ` (R17, R45). -/
def deadzoneOperand (v : BitVec 16) : BitVec 13 := BitVec.ofInt 13 (clampInt (sext16 v) 0 Config.dzMax)

/-- The value `WR` stores in `EXPO0..EXPO3` (R17, R45). -/
def expoOperand (v : BitVec 16) : BitVec 15 := BitVec.ofInt 15 (clampInt (sext16 v) 0 Config.expoMax)

/-- The value `WR` stores in `RATE`: 0 becomes 1 (R18, R45). -/
def rateOperand (v : BitVec 16) : BitVec 16 := if v = 0#16 then 1#16 else v

/-- The mask `WR` writes to `IEN` and applies to `EVT`: `imm[4:0]`, the other bits ignored (R18, R24, R45). -/
def maskOperand (v : BitVec 16) : BitVec 5 := v.extractLsb' 0 5

/-- The channel value of `CH.SET`: `min(zext_16(imm), 2047)` (R45, R82). -/
def channelOperand (v : BitVec 16) : Chan := BitVec.ofNat 11 (min v.toNat Config.chanMax)

/-- The channel value of `CH.BTN`: 2047 pressed, 0 released (R101). -/
def buttonOperand (p : Bool) : Chan := if p then 2047#11 else 0#11

/-- The sample of `SHP.AX`, saturated to −16384..16384 (R45, R94). -/
def axisSample (x : BitVec 16) : Int := clampInt (sext16 x) (-16384) 16384

/-- The sample of `SHP.TRG`, saturated to 0..16384 (R45, R97). -/
def triggerSample (x : BitVec 16) : Nat := (clampInt (sext16 x) 0 16384).toNat

/-- `shape_axis(x, dz, e)` (R94). -/
def shapeAxis (x : BitVec 16) (dz e : Nat) : Int := shapeSigned (axisSample x) dz e

/-- `shape_trigger(x, tdz)` (R97). -/
def shapeTrigger (x : BitVec 16) (tdz : Nat) : Nat := dzscale (triggerSample x) tdz

/-- The channel register a channel number names (R12, R82, R100, R101). -/
def channelOf (c : Nat) : Option (Fin 16) := if h : c < 16 then some ⟨c, h⟩ else none

/-- The axis an axis number names (R99). -/
def axisOf (a : Nat) : Option (Fin 4) := if h : a < 4 then some ⟨a, h⟩ else none

/-- The channel an axis writes: channel `a` (R12, R99). -/
def axisChannel (a : Fin 4) : Fin 16 := a.castLE (by decide)

/-- The register a register number names (R16 to R24). -/
def regOf (r : Nat) : Option Reg :=
  match r with
  | 0x10 => some (.dz 0)
  | 0x11 => some (.dz 1)
  | 0x12 => some (.dz 2)
  | 0x13 => some (.dz 3)
  | 0x14 => some (.expo 0)
  | 0x15 => some (.expo 1)
  | 0x16 => some (.expo 2)
  | 0x17 => some (.expo 3)
  | 0x18 => some .tdz
  | 0x19 => some .rev
  | 0x1A => some .rate
  | 0x1B => some .failThr
  | 0x1C => some .statIvl
  | 0x1D => some .ien
  | 0x20 => some .crc
  | 0x21 => some .shpY
  | 0x22 => some .rxlen
  | 0x23 => some .cstat
  | 0x24 => some .derr
  | 0x25 => some .rtype
  | 0x26 => some .rplen
  | 0x30 => some .sstate
  | 0x31 => some .sflags
  | 0x32 => some .failCnt
  | 0x33 => some .totalSent
  | 0x34 => some .statCnt
  | 0x35 => some .tmr
  | 0x36 => some .period
  | 0x37 => some .evt
  | _ => none

/-- The memory space a space number names (R30). -/
def spaceOf (n : Nat) : Option Space :=
  match n with
  | 0 => some .ch
  | 1 => some .uch
  | 2 => some .mbx
  | 3 => some .out
  | 4 => some .ebuf
  | 5 => some .txbuf
  | 6 => some .rxbuf
  | 7 => some .crcTab
  | 8 => some .cube
  | _ => none

/-- The element count of a space (R30). -/
def spaceSize : Space → Nat
  | .ch => 16
  | .uch => 16
  | .mbx => 16
  | .out => 16
  | .ebuf => 26
  | .txbuf => 26
  | .rxbuf => 64
  | .crcTab => 256
  | .cube => 65

end Sys2Proof.Machine
end

