-- ==== Sys2Proof/Machine/Flags.lean ====
section
/-! DEFINITION. The codes of the enumerated registers, the composed registers `CSTAT` and `SFLAGS`, the functions of state that
are not storage (`PERIOD`, `SFLAGS.WARN`, `irq`), and the event bits (R20 to R25, R110, R119, R132, R133). -/

namespace Sys2Proof.Machine

/-- The value of `SSTATE` (R21, R110). -/
def sstateCode : SState → BitVec 3
  | .stopped => 0#3
  | .wait => 1#3
  | .send => 2#3
  | .exitCancel => 3#3
  | .exitFatal => 4#3

/-- The value of `DERR` (R20, R75). -/
def derrCode : DecErr → BitVec 3
  | .ok => 0#3
  | .short => 1#3
  | .sync => 2#3
  | .len => 3#3
  | .trunc => 4#3
  | .crc => 5#3

/-- The value of a response's `status` (R47). -/
def statusCode : Status → BitVec 3
  | .ok => 0#3
  | .illegal => 1#3
  | .rsvd => 2#3
  | .badIdx => 3#3
  | .refused => 4#3
  | .rdOnly => 5#3

/-- The bit of `EVT` an event sets (R24, R132). -/
def eventBit : Event → BitVec 5
  | .status => 0b00001#5
  | .failLow => 0b00010#5
  | .failWarn => 0b00100#5
  | .exitCancel => 0b01000#5
  | .exitFatal => 0b10000#5

/-- `CSTAT = {RXOVF, DVALID, EVALID}` (R20, `40_host_access.md`). -/
def cstatValue (s : State) : BitVec 3 :=
  BitVec.ofBool s.rxovf ++ BitVec.ofBool s.dvalid ++ BitVec.ofBool s.evalid

/-- `SFLAGS.WARN`, not storage: `FAIL_CNT ≥ FAIL_THR` (R21). -/
def warn (s : State) : Bool := decide (s.failThr.toNat ≤ s.failCnt.toNat)

/-- `SFLAGS = {WARN, FATAL_PEND, CANCEL_PEND, TICK_PEND, MBX_DIRTY}` (R21, `40_host_access.md`). -/
def sflagsValue (s : State) : BitVec 5 :=
  BitVec.ofBool (warn s) ++ BitVec.ofBool s.fatalPend ++ BitVec.ofBool s.cancelPend ++
    BitVec.ofBool s.tickPend ++ BitVec.ofBool s.mbxDirty

/-- `PERIOD`, not storage: `1000000 // RATE` (R23, R112). -/
def period (s : State) : Nat := Config.tbPerSecond / s.rate.toNat

/-- The value the timer is loaded with: `PERIOD − 1` (R113, R120). -/
def timerReload (s : State) : BitVec 20 := BitVec.ofNat 20 (period s - 1)

/-- The level of the interrupt line, not state: `(EVT & IEN) ≠ 0` (R133). -/
def irq (s : State) : Bool := decide (s.evt &&& s.ien ≠ 0#5)

end Sys2Proof.Machine
end

