-- ==== Sys2Proof/Machine/Ops.lean ====
section
/-! DEFINITION. The named operations every meaning is written over: responding, failing, emitting an event, resetting,
reading and writing registers and spaces, and the scheduler's `start_send`, `tick` and `wait_point`.

The block has no traps (R130, R136): nothing is saved, no mode changes and control goes nowhere, because there is no program
counter. What stands in an exception's place is `failWith`, the one shared operation by which a command fails; there is no
return from it (R137). -/

namespace Sys2Proof.Machine

/-- `respond(status, data)` (R5, R47). -/
def respond (st : Status) (data : Word) (s : State) : State :=
  { s with trace := s.trace ++ [.response st data] }

/-- A command that completes: status `OK` with its data (R47). -/
def respondOk (data : Word) (s : State) : State := respond .ok data s

/-- A command that fails: a non-zero status with data 0 and no state change at all (R47, R136). -/
def failWith (st : Status) (s : State) : State := respond st 0#32 s

/-- `emit EV_X`: the output pulse, and the sticky bit of `EVT` (R119). -/
def emit (e : Event) (s : State) : State :=
  { s with evt := s.evt ||| eventBit e, trace := s.trace ++ [.event e] }

/-- The reset of R140: every piece of the block's state at its reset value, nothing emitted. The environment's inputs and the
outputs already emitted are outside the block and stay. -/
def resetBlock (s : State) : State := { State.reset with inputs := s.inputs, trace := s.trace }

/-- The value of a register, zero-extended to 32 bits (`RegRead`, `40_host_access.md`; R16 to R24). -/
def regValue (r : Reg) (s : State) : Word :=
  match r with
  | .dz a => s.dz[a].setWidth 32
  | .expo a => s.expo[a].setWidth 32
  | .tdz => s.tdz.setWidth 32
  | .rev => s.rev.setWidth 32
  | .rate => s.rate.setWidth 32
  | .failThr => s.failThr.setWidth 32
  | .statIvl => s.statIvl.setWidth 32
  | .ien => s.ien.setWidth 32
  | .crc => s.crc.setWidth 32
  | .shpY => s.shpY.setWidth 32
  | .rxlen => s.rxlen.setWidth 32
  | .cstat => (cstatValue s).setWidth 32
  | .derr => (derrCode s.derr).setWidth 32
  | .rtype => s.rtype.setWidth 32
  | .rplen => s.rplen.setWidth 32
  | .sstate => (sstateCode s.sstate).setWidth 32
  | .sflags => (sflagsValue s).setWidth 32
  | .failCnt => s.failCnt.setWidth 32
  | .totalSent => s.totalSent
  | .statCnt => s.statCnt.setWidth 32
  | .tmr => s.tmr.setWidth 32
  | .period => BitVec.ofNat 32 (period s)
  | .evt => s.evt.setWidth 32

/-- `RegRead(r)`: `none` where the number names no register (R16, R55). -/
def regRead (r : Nat) (s : State) : Option Word := (regOf r).map (fun reg => regValue reg s)

/-- A register write: the state after it, or `none` where the register is read-only (R16, R56). -/
def regWrite (r : Reg) (v : BitVec 16) (s : State) : Option State :=
  match r with
  | .dz a => some { s with dz := s.dz.set a (deadzoneOperand v) }
  | .expo a => some { s with expo := s.expo.set a (expoOperand v) }
  | .tdz => some { s with tdz := deadzoneOperand v }
  | .rev => some { s with rev := v }
  | .rate => some { s with rate := rateOperand v }
  | .failThr => some { s with failThr := v }
  | .statIvl => some { s with statIvl := v }
  | .ien => some { s with ien := maskOperand v }
  | .evt => some { s with evt := s.evt &&& ~~~ (maskOperand v) }
  | .crc | .shpY | .rxlen | .cstat | .derr | .rtype | .rplen | .sstate | .sflags
  | .failCnt | .totalSent | .statCnt | .tmr | .period => none

/-- One channel of a vector by element number (R30). -/
def chanAt (v : ChanVec) (off : Nat) : Chan := v[off]?.getD 0#11

/-- Element `off` of a space, zero-extended to 32 bits; meaningful for `off` below the space's size (R30). -/
def spaceElem (sp : Space) (off : Nat) (s : State) : Word :=
  match sp with
  | .ch => (chanAt s.ch off).setWidth 32
  | .uch => (chanAt s.uch off).setWidth 32
  | .mbx => (chanAt s.mbx off).setWidth 32
  | .out => (chanAt s.out off).setWidth 32
  | .ebuf => (s.ebuf.read off).setWidth 32
  | .txbuf => (s.txbuf.read off).setWidth 32
  | .rxbuf => (s.rxbuf.read off).setWidth 32
  | .crcTab => (crcTab (BitVec.ofNat 8 off)).setWidth 32
  | .cube => BitVec.ofNat 32 (cubeTab off)

/-- `SpaceRead(s, off)`: `none` where the space or the element does not exist (R30, R57). -/
def spaceRead (n off : Nat) (s : State) : Option Word :=
  match spaceOf n with
  | none => none
  | some sp => if off < spaceSize sp then some (spaceElem sp off s) else none

/-- `RXBUF[0..RXLEN)`: the bytes the decoder judges (R14, R78). -/
def rxBytes (s : State) : List Byte := s.rxbuf.readBytes 0 s.rxlen.toNat

/-- `CH[c] <- v` (R12). -/
def setCh (c : Fin 16) (v : Chan) (s : State) : State := { s with ch := s.ch.set c v }

/-- Take the published vector if there is one not yet taken (R40, R115). -/
def takeMailbox (s : State) : State :=
  if s.mbxDirty then { s with out := s.mbx, mbxDirty := false } else s

/-- `start_send()` (R115): take, build the frame of `OUT` into `TXBUF`, go to `SEND`, hand the frame to the transport. -/
def startSend (s : State) : State :=
  let t := takeMailbox s
  { t with
    txbuf := Memory.ofBytes (frame t.out)
    sstate := .send
    trace := t.trace ++ [.txReq (frame t.out)] }

/-- `tick()` (R114), the tests on the state at entry. -/
def tick (s : State) : State :=
  match s.sstate with
  | .wait => startSend s
  | .send => { s with tickPend := true }
  | .stopped | .exitCancel | .exitFatal => s

/-- `wait_point()` (R118): fatal, then cancel, then a pending tick, else wait. -/
def waitPoint (s : State) : State :=
  if s.fatalPend then
    emit .exitFatal { s with sstate := .exitFatal, tickPend := false, cancelPend := false, fatalPend := false }
  else if s.cancelPend then
    emit .exitCancel { s with sstate := .exitCancel, tickPend := false, cancelPend := false }
  else if s.tickPend then
    startSend { s with tickPend := false }
  else
    { s with sstate := .wait }

end Sys2Proof.Machine
end

