-- ==== Sys2Proof/Machine/CodecUnit.lean ====
section
/-! DEFINITION. The codec commands `CH.SET`, `ENC`, `RX.CLR`, `RX.PUSH`, `DEC`, `UNPK` (`42_codec.md`). -/

namespace Sys2Proof.Machine

/-- `CH.SET c, v` (R82). -/
def execChSet (c : Nat) (v : BitVec 16) (s : State) : Host.Outcome State Fault Refusal :=
  match channelOf c with
  | none => .next (failWith .badIdx s)
  | some c => .next (respondOk ((channelOperand v).setWidth 32) (setCh c (channelOperand v) s))

/-- `ENC` (R77). -/
def execEnc (s : State) : Host.Outcome State Fault Refusal :=
  .next (respondOk (((frame s.ch).getD 25 0x00#8).setWidth 32)
    { s with ebuf := Memory.ofBytes (frame s.ch), evalid := true })

/-- `RX.CLR` (R79). -/
def execRxClr (s : State) : Host.Outcome State Fault Refusal :=
  .next (respondOk 0#32
    { s with rxlen := 0#7, rxovf := false, dvalid := false, derr := .ok, rtype := 0x00#8, rplen := 0#6 })

/-- `RX.PUSH b` (R80). -/
def execRxPush (b : Byte) (s : State) : Host.Outcome State Fault Refusal :=
  if s.rxlen = 64#7 then .next (respondOk 64#32 { s with rxovf := true })
  else
    .next (respondOk ((s.rxlen + 1#7).setWidth 32)
      { s with rxbuf := s.rxbuf.write s.rxlen.toNat b, rxlen := s.rxlen + 1#7, dvalid := false })

/-- Record what the frame check found (R78). -/
def recordDecode (d : DecodeResult) (s : State) : State :=
  { s with derr := d.err, rtype := d.type, rplen := BitVec.ofNat 6 d.plen, dvalid := decide (d.err = .ok) }

/-- `DEC` (R78). -/
def execDec (s : State) : Host.Outcome State Fault Refusal :=
  .next (respondOk ((derrCode (decodeFrame (rxBytes s)).err).setWidth 32) (recordDecode (decodeFrame (rxBytes s)) s))

/-- `UNPK` (R81). -/
def execUnpk (s : State) : Host.Outcome State Fault Refusal :=
  if s.dvalid = false ∨ s.rplen.toNat < Config.packedSize then .next (failWith .refused s)
  else .next (respondOk 0#32 { s with uch := unpack (s.rxbuf.readBytes 3 Config.packedSize) })

end Sys2Proof.Machine
end

