-- ==== Sys2Proof/Machine/CrcUnit.lean ====
section
/-! DEFINITION. The streaming CRC commands `CRC.INIT` and `CRC.UPD` (`41_crc.md`). -/

namespace Sys2Proof.Machine

/-- `CRC.INIT` (R64). -/
def execCrcInit (s : State) : Host.Outcome State Fault Refusal :=
  .next (respondOk 0#32 { s with crc := crcInitial })

/-- `CRC.UPD b` (R65). -/
def execCrcUpd (b : Byte) (s : State) : Host.Outcome State Fault Refusal :=
  .next (respondOk ((crcStepTable s.crc b).setWidth 32) { s with crc := crcStepTable s.crc b })

end Sys2Proof.Machine
end

