-- ==== Sys2Proof/Machine/HostAccess.lean ====
section
/-! DEFINITION. The host access commands `NOP`, `RESET`, `RD`, `WR`, `RDM` (`40_host_access.md`), and the answers to a word that
is no command (R48). -/

namespace Sys2Proof.Machine

/-- `NOP` (R53). -/
def execNop (s : State) : Host.Outcome State Fault Refusal := .next (respondOk 0#32 s)

/-- `RESET` (R54). -/
def execReset (s : State) : Host.Outcome State Fault Refusal := .next (respondOk 0#32 (resetBlock s))

/-- `RD r` (R55). -/
def execRd (r : Nat) (s : State) : Host.Outcome State Fault Refusal :=
  match regRead r s with
  | none => .next (failWith .badIdx s)
  | some v => .next (respondOk v s)

/-- `WR r, v` (R56). -/
def execWr (r : Nat) (v : BitVec 16) (s : State) : Host.Outcome State Fault Refusal :=
  match regOf r with
  | none => .next (failWith .badIdx s)
  | some reg =>
    match regWrite reg v s with
    | none => .next (failWith .rdOnly s)
    | some t => .next (respondOk 0#32 t)

/-- `RDM s, off` (R57). -/
def execRdm (sp off : Nat) (s : State) : Host.Outcome State Fault Refusal :=
  match spaceRead sp off s with
  | none => .next (failWith .badIdx s)
  | some v => .next (respondOk v s)

/-- The answer to a word with an undefined opcode (R48). -/
def answerIllegal (s : State) : Host.Outcome State Fault Refusal := .next (failWith .illegal s)

/-- The answer to a word with a reserved bit set (R48). -/
def answerReserved (s : State) : Host.Outcome State Fault Refusal := .next (failWith .rsvd s)

end Sys2Proof.Machine
end

