-- ==== Sys2Proof/Machine/SchedulerUnit.lean ====
section
/-! DEFINITION. The scheduler commands `SCH.PUB`, `SCH.START`, `SCH.CANCEL`, `SCH.PCLOSE`, and the environment's steps `TB`,
`TXR(ok)`, `TXR(fail)` and `HRESET` (`44_scheduler.md`, R140). -/

namespace Sys2Proof.Machine

/-- `SCH.PUB` (R111): the data is the previous `MBX_DIRTY`. -/
def execSchPub (s : State) : Host.Outcome State Fault Refusal :=
  .next (respondOk ((BitVec.ofBool s.mbxDirty).setWidth 32)
    { s with mbx := reverseVec s.rev s.ch, mbxDirty := true })

/-- `SCH.START` (R120). -/
def execSchStart (s : State) : Host.Outcome State Fault Refusal :=
  if s.sstate = .stopped then .next (respondOk 0#32 { s with sstate := .wait, tmr := timerReload s })
  else .next (failWith .refused s)

/-- The end of `SCH.CANCEL` and `SCH.PCLOSE`: the data is the scheduler state after the command (R121, R122). -/
def respondSstate (s : State) : State := respondOk ((sstateCode s.sstate).setWidth 32) s

/-- `SCH.CANCEL` (R121). -/
def execSchCancel (s : State) : Host.Outcome State Fault Refusal :=
  match s.sstate with
  | .stopped | .wait => .next (respondSstate (emit .exitCancel { s with sstate := .exitCancel }))
  | .send => .next (respondSstate { s with cancelPend := true })
  | .exitCancel | .exitFatal => .next (respondSstate s)

/-- `SCH.PCLOSE` (R122). -/
def execSchPclose (s : State) : Host.Outcome State Fault Refusal :=
  match s.sstate with
  | .stopped | .wait => .next (respondSstate (emit .exitFatal { s with sstate := .exitFatal }))
  | .send => .next (respondSstate { s with fatalPend := true })
  | .exitCancel | .exitFatal => .next (respondSstate s)

/-- The timer runs in `WAIT` and `SEND` (R23, R110, R113). -/
def timerRuns (s : State) : Bool := decide (s.sstate = .wait) || decide (s.sstate = .send)

/-- The `TB` step (R113). -/
def tbStep (s : State) : State :=
  if timerRuns s then
    if s.tmr = 0#20 then tick { s with tmr := timerReload s } else { s with tmr := s.tmr - 1#20 }
  else s

/-- Count one successful transmission towards the status summary (R116). -/
def countStatus (s : State) : State :=
  if s.statIvl = 0#16 then { s with statCnt := 0#16 }
  else if s.statIvl.toNat ≤ s.statCnt.toNat + 1 then emit .status { s with statCnt := 0#16 }
  else { s with statCnt := s.statCnt + 1#16 }

/-- `FAIL_CNT` after one more failure, saturating at 65535 (R22, R117). -/
def failCntNext (s : State) : BitVec 16 := BitVec.ofNat 16 (min (s.failCnt.toNat + 1) 65535)

/-- Count one failed transmission and report its severity, the comparison after the increment (R117). -/
def countFailure (s : State) : State :=
  if s.failThr.toNat ≤ (failCntNext s).toNat then emit .failWarn { s with failCnt := failCntNext s }
  else emit .failLow { s with failCnt := failCntNext s }

/-- The `TXR(ok)` step (R116), ignored outside `SEND` (R123). -/
def txrOkStep (s : State) : State :=
  if s.sstate = .send then
    waitPoint (countStatus { s with failCnt := 0#16, totalSent := s.totalSent + 1#32 })
  else s

/-- The `TXR(fail)` step (R117), ignored outside `SEND` (R123). -/
def txrFailStep (s : State) : State :=
  if s.sstate = .send then waitPoint (countFailure s) else s

/-- A transport result (R126). -/
def txrStep (ok : Bool) (s : State) : State := if ok then txrOkStep s else txrFailStep s

/-- The `HRESET` step (R140). -/
def hresetStep (s : State) : State := resetBlock s

end Sys2Proof.Machine
end

