-- ==== Sys2Proof/Machine/ShaperUnit.lean ====
section
/-! DEFINITION. The shaper and mapper commands `SHP.AX`, `SHP.TRG`, `CH.BTN` (`43_shaper.md`). -/

namespace Sys2Proof.Machine

/-- The data of the shaper commands: `{channel value, tc16(y)}`, the channel in bits 26:16 (R99, R100). -/
def shaperData (c : Chan) (y : BitVec 16) : Word := 0#5 ++ c ++ y

/-- Store a shaped value and the channel it maps to, and answer both (R99, R100). -/
def storeShaped (c : Fin 16) (y : BitVec 16) (v : Chan) (s : State) : State :=
  respondOk (shaperData v y) (setCh c v { s with shpY := y })

/-- `SHP.AX a, x` (R99). -/
def execShpAx (a : Nat) (x : BitVec 16) (s : State) : Host.Outcome State Fault Refusal :=
  match axisOf a with
  | none => .next (failWith .badIdx s)
  | some a =>
    let y := shapeAxis x s.dz[a].toNat s.expo[a].toNat
    .next (storeShaped (axisChannel a) (tc16 y) (BitVec.ofNat 11 (mapS y)) s)

/-- `SHP.TRG c, x` (R100). -/
def execShpTrg (c : Nat) (x : BitVec 16) (s : State) : Host.Outcome State Fault Refusal :=
  match channelOf c with
  | none => .next (failWith .badIdx s)
  | some c =>
    let t := shapeTrigger x s.tdz.toNat
    .next (storeShaped c (BitVec.ofNat 16 t) (BitVec.ofNat 11 (mapU t)) s)

/-- `CH.BTN c, p` (R101). -/
def execChBtn (c : Nat) (p : Bool) (s : State) : Host.Outcome State Fault Refusal :=
  match channelOf c with
  | none => .next (failWith .badIdx s)
  | some c => .next (respondOk ((buttonOperand p).setWidth 32) (setCh c (buttonOperand p) s))

end Sys2Proof.Machine
end

