-- ==== Sys2Proof/Machine/Dispatch.lean ====
section
/-! DEFINITION. The meaning of each command, one arm for each constructor of `Instr`. -/

namespace Sys2Proof.Machine

def exec (i : Instr) (s : State) : Host.Outcome State Fault Refusal :=
  match i with
  | .nop => Sys2Proof.Machine.execNop s
  | .reset => Sys2Proof.Machine.execReset s
  | .rd r => Sys2Proof.Machine.execRd r s
  | .wr r v => Sys2Proof.Machine.execWr r v s
  | .rdm sp off => Sys2Proof.Machine.execRdm sp off s
  | .crcInit => Sys2Proof.Machine.execCrcInit s
  | .crcUpd b => Sys2Proof.Machine.execCrcUpd b s
  | .chSet c v => Sys2Proof.Machine.execChSet c v s
  | .chBtn c p => Sys2Proof.Machine.execChBtn c p s
  | .enc => Sys2Proof.Machine.execEnc s
  | .rxClr => Sys2Proof.Machine.execRxClr s
  | .rxPush b => Sys2Proof.Machine.execRxPush b s
  | .dec => Sys2Proof.Machine.execDec s
  | .unpk => Sys2Proof.Machine.execUnpk s
  | .shpAx a x => Sys2Proof.Machine.execShpAx a x s
  | .shpTrg c x => Sys2Proof.Machine.execShpTrg c x s
  | .schPub => Sys2Proof.Machine.execSchPub s
  | .schStart => Sys2Proof.Machine.execSchStart s
  | .schCancel => Sys2Proof.Machine.execSchCancel s
  | .schPclose => Sys2Proof.Machine.execSchPclose s

end Sys2Proof.Machine
end

