-- ==== Sys2Proof/Machine/Step.lean ====
section
/-! DEFINITION. One step of the block (R6): take the next input the environment presents and do what the rules say of it. -/

namespace Sys2Proof.Machine

/-- One command word on the command port (R6, R47, R52). -/
def runWord (w : Word) (s : State) : Host.Outcome State Fault Refusal :=
  match decode w with
  | .illegal => answerIllegal s
  | .reserved => answerReserved s
  | .command i => exec i s

/-- One input of the block (R6). -/
def runInput (inp : Input) (s : State) : Host.Outcome State Fault Refusal :=
  match inp with
  | .hreset => .next (hresetStep s)
  | .txr ok => .next (txrStep ok s)
  | .tb => .next (tbStep s)
  | .command w => runWord w s

/-- One step. Where nothing is presented the block waits: its state changes only in steps (R6; log entry 3). -/
def step (s : State) : Host.Outcome State Fault Refusal :=
  match takeInput s.inputs with
  | none => .next s
  | some (inp, rest) => runInput inp { s with inputs := rest }

/-- `s` with the command word presented by the host at an instant of its own, before all else that `s` has presented: there
is no memory to fetch from (R11), so this stands for the host issuing the word (log entry 4). -/
def State.withFetchWord (s : State) (nbits w : Nat) : State :=
  { s with inputs := Arrival.ofCommand (BitVec.ofNat 32 (w % 2 ^ nbits)) :: s.inputs }

end Sys2Proof.Machine
end

