-- ==== Sys2Proof/Safety.lean ====
section
/-! DEFINITION. The terms the statements use: the invariant of R28, the reset values of R27, the register file as
`10_state.md` tabulates it, the opcode table with its reserved masks, the status a command word must get (R134), the
transition table of R124, and what the scheduler may see (R38). -/

namespace Sys2Proof.Safety

open Sys2Proof.Machine

/-! ### The invariant -/

/-- What R28 says of the receive buffer while `DVALID = 1`: it begins with the valid frame the decode registers describe. -/
structure HoldsDecodedFrame (s : State) : Prop where
  derr_ok : s.derr = .ok
  long_enough : 4 ≤ s.rxlen.toNat
  sync : s.rxbuf.read 0 = 0xC8#8
  len_min : 2 ≤ (s.rxbuf.read 1).toNat
  len_max : (s.rxbuf.read 1).toNat ≤ 62
  complete : 2 + (s.rxbuf.read 1).toNat ≤ s.rxlen.toNat
  rtype : s.rtype = s.rxbuf.read 2
  rplen : s.rplen.toNat = (s.rxbuf.read 1).toNat - 2
  crc : crc8 (s.rxbuf.readBytes 1 (s.rxbuf.read 1).toNat) = s.rxbuf.read (1 + (s.rxbuf.read 1).toNat)

/-- The state of the sending side before any `SEND` since reset: what R28's "has ever been `SEND`" excludes. -/
structure NeverSent (s : State) : Prop where
  not_sending : s.sstate ≠ .send
  txbuf : s.txbuf = []
  out : s.out = Vector.replicate 16 1024#11
  failCnt : s.failCnt = 0#16
  totalSent : s.totalSent = 0#32
  statCnt : s.statCnt = 0#16

/-- The invariant of R28, with the ranges of R19, R20 and R22 and the canonical form of the byte buffers (log entry 5). -/
structure Inv (s : State) : Prop where
  ebuf_wf : s.ebuf.wf = true
  ebuf_within : s.ebuf.within 26 = true
  txbuf_wf : s.txbuf.wf = true
  txbuf_within : s.txbuf.within 26 = true
  rxbuf_wf : s.rxbuf.wf = true
  rxbuf_within : s.rxbuf.within 64 = true
  dz_le : ∀ a : Fin 4, s.dz[a].toNat ≤ 4096
  expo_le : ∀ a : Fin 4, s.expo[a].toNat ≤ 16384
  tdz_le : s.tdz.toNat ≤ 4096
  rate_pos : 1 ≤ s.rate.toNat
  shpY_ge : -16384 ≤ s.shpY.toInt
  shpY_le : s.shpY.toInt ≤ 16384
  rxlen_le : s.rxlen.toNat ≤ 64
  rxovf_full : s.rxovf = true → s.rxlen = 64#7
  rplen_le : s.rplen.toNat ≤ 60
  derr_clears : s.derr ≠ .ok → s.rtype = 0x00#8 ∧ s.rplen = 0#6
  decoded : s.dvalid = true → HoldsDecodedFrame s
  encoded : s.evalid = true → ∃ v : ChanVec, s.ebuf.readBytes 0 26 = frame v
  sent : NeverSent s ∨ s.txbuf.readBytes 0 26 = frame s.out
  pend_only_in_send : s.sstate ≠ .send → s.tickPend = false ∧ s.cancelPend = false ∧ s.fatalPend = false
  tmr_lt : s.tmr.toNat < 1000000
  statCnt_le : s.statCnt.toNat ≤ 65534

/-! ### Reset values -/

/-- Every piece of the block's state has its reset value: the table of R27. -/
structure AtResetValues (s : State) : Prop where
  ch : ∀ i : Fin 16, s.ch[i] = 1024#11
  mbx : ∀ i : Fin 16, s.mbx[i] = 1024#11
  out : ∀ i : Fin 16, s.out[i] = 1024#11
  uch : ∀ i : Fin 16, s.uch[i] = 0#11
  ebuf : ∀ k, s.ebuf.read k = 0x00#8
  txbuf : ∀ k, s.txbuf.read k = 0x00#8
  rxbuf : ∀ k, s.rxbuf.read k = 0x00#8
  dz : ∀ a : Fin 4, s.dz[a] = 0#13
  expo : ∀ a : Fin 4, s.expo[a] = 0#15
  tdz : s.tdz = 0#13
  rev : s.rev = 0#16
  rate : s.rate = 250#16
  failThr : s.failThr = 10#16
  statIvl : s.statIvl = 250#16
  ien : s.ien = 0#5
  crc : s.crc = 0x00#8
  shpY : s.shpY = 0#16
  rxlen : s.rxlen = 0#7
  evalid : s.evalid = false
  dvalid : s.dvalid = false
  rxovf : s.rxovf = false
  derr : s.derr = .ok
  rtype : s.rtype = 0x00#8
  rplen : s.rplen = 0#6
  sstate : s.sstate = .stopped
  mbxDirty : s.mbxDirty = false
  tickPend : s.tickPend = false
  cancelPend : s.cancelPend = false
  fatalPend : s.fatalPend = false
  failCnt : s.failCnt = 0#16
  totalSent : s.totalSent = 0#32
  statCnt : s.statCnt = 0#16
  tmr : s.tmr = 0#20
  evt : s.evt = 0#5

/-! ### The register file and the memory spaces, as tabulated -/

/-- A flag as a number. -/
def bit (b : Bool) : Nat := if b then 1 else 0

/-- The number a read of `DERR` and the answer of `DEC` give, as the tables of R20 and R75 print it. -/
def derrNumber : DecErr → Nat
  | .ok => 0
  | .short => 1
  | .sync => 2
  | .len => 3
  | .trunc => 4
  | .crc => 5

/-- The number a read of `SSTATE` gives, as the tables of R21 and R110 print it. -/
def sstateNumber : SState → Nat
  | .stopped => 0
  | .wait => 1
  | .send => 2
  | .exitCancel => 3
  | .exitFatal => 4

/-- Every existing register number with the value a read gives (R17 to R24), the composed ones as sums of their bits. -/
def registerValues (s : State) : List (Nat × Nat) :=
  [(0x10, s.dz[0].toNat), (0x11, s.dz[1].toNat), (0x12, s.dz[2].toNat), (0x13, s.dz[3].toNat),
   (0x14, s.expo[0].toNat), (0x15, s.expo[1].toNat), (0x16, s.expo[2].toNat), (0x17, s.expo[3].toNat),
   (0x18, s.tdz.toNat), (0x19, s.rev.toNat), (0x1A, s.rate.toNat), (0x1B, s.failThr.toNat),
   (0x1C, s.statIvl.toNat), (0x1D, s.ien.toNat)] ++
  [(0x20, s.crc.toNat), (0x21, s.shpY.toNat), (0x22, s.rxlen.toNat),
   (0x23, bit s.evalid + 2 * bit s.dvalid + 4 * bit s.rxovf),
   (0x24, derrNumber s.derr), (0x25, s.rtype.toNat), (0x26, s.rplen.toNat)] ++
  [(0x30, sstateNumber s.sstate),
   (0x31, bit s.mbxDirty + 2 * bit s.tickPend + 4 * bit s.cancelPend + 8 * bit s.fatalPend +
     16 * (if s.failThr.toNat ≤ s.failCnt.toNat then 1 else 0)),
   (0x32, s.failCnt.toNat), (0x33, s.totalSent.toNat), (0x34, s.statCnt.toNat), (0x35, s.tmr.toNat),
   (0x36, 1000000 / s.rate.toNat), (0x37, s.evt.toNat)]

/-- The register numbers that exist (R16). -/
def registerExists (r : Nat) : Bool :=
  (decide (0x10 ≤ r) && decide (r ≤ 0x1D)) || (decide (0x20 ≤ r) && decide (r ≤ 0x26)) ||
    (decide (0x30 ≤ r) && decide (r ≤ 0x37))

/-- The registers that exist and are read-only to the host (R56). -/
def registerReadOnly (r : Nat) : Bool :=
  (decide (0x20 ≤ r) && decide (r ≤ 0x26)) || (decide (0x30 ≤ r) && decide (r ≤ 0x36))

/-- The element counts of the spaces 0 to 8 (R30). -/
def spaceSizes : List Nat := [16, 16, 16, 16, 26, 26, 64, 256, 65]

/-! ### Command words -/

/-- The opcodes of R46 with the mask of the bits their format reserves, as `opcode_table.json` has them. -/
def opcodeMasks : List (BitVec 8 × Word) :=
  [(0x00#8, 0x00FFFFFF#32), (0x01#8, 0x00FFFFFF#32), (0x02#8, 0x0000FFFF#32), (0x03#8, 0#32), (0x04#8, 0#32)] ++
  [(0x10#8, 0x00FFFFFF#32), (0x11#8, 0x00FFFF00#32)] ++
  [(0x20#8, 0#32), (0x21#8, 0x0000FFFE#32), (0x22#8, 0x00FFFFFF#32), (0x23#8, 0x00FFFFFF#32),
   (0x24#8, 0x00FFFF00#32), (0x25#8, 0x00FFFFFF#32), (0x26#8, 0x00FFFFFF#32)] ++
  [(0x30#8, 0#32), (0x31#8, 0#32)] ++
  [(0x40#8, 0x00FFFFFF#32), (0x41#8, 0x00FFFFFF#32), (0x42#8, 0x00FFFFFF#32), (0x43#8, 0x00FFFFFF#32)]

/-- The index of a word with a known opcode names something that exists (check 3 of R134). -/
def indexExists (w : Word) : Bool :=
  let op := (w.extractLsb' 24 8).toNat
  let idx := (w.extractLsb' 16 8).toNat
  let imm := (w.extractLsb' 0 16).toNat
  if op = 0x02 ∨ op = 0x03 then registerExists idx
  else if op = 0x04 then decide (imm < spaceSizes.getD idx 0)
  else if op = 0x20 ∨ op = 0x21 ∨ op = 0x31 then decide (idx ≤ 15)
  else if op = 0x30 then decide (idx ≤ 3)
  else true

/-- The precondition of the two commands that have one (check 5 of R134). -/
def preconditionHolds (w : Word) (s : State) : Bool :=
  let op := (w.extractLsb' 24 8).toNat
  if op = 0x41 then decide (s.sstate = .stopped)
  else if op = 0x26 then s.dvalid && decide (22 ≤ s.rplen.toNat)
  else true

/-- The status a command word gets: the first check that fails, in the order of R134. -/
def statusOf (w : Word) (s : State) : Status :=
  match opcodeMasks.lookup (w.extractLsb' 24 8) with
  | none => .illegal
  | some mask =>
    if w &&& mask ≠ 0#32 then .rsvd
    else if indexExists w = false then .badIdx
    else if (w.extractLsb' 24 8).toNat = 0x03 ∧ registerReadOnly (w.extractLsb' 16 8).toNat then .rdOnly
    else if preconditionHolds w s = false then .refused
    else .ok

/-- An output that is a response. -/
def isResponse : Output → Bool
  | .response _ _ => true
  | .event _ => false
  | .txReq _ => false

/-- An output that is a `TX_REQ`. -/
def isTxReq : Output → Bool
  | .response _ _ => false
  | .event _ => false
  | .txReq _ => true

/-- The `EVT` bits of the events among some outputs (R119). -/
def eventsIn : List Output → BitVec 5
  | [] => 0#5
  | .event e :: os => eventBit e ||| eventsIn os
  | .response _ _ :: os => eventsIn os
  | .txReq _ :: os => eventsIn os

/-! ### The scheduler -/

/-- The next scheduler state at the wait point, by priority (R118, R124). -/
def afterResult (s : State) : SState :=
  if s.fatalPend then .exitFatal else if s.cancelPend then .exitCancel else if s.tickPend then .send else .wait

/-- The table of R124: `SSTATE` after each input of the block. -/
def tableNext (s : State) : Input → SState
  | .hreset => .stopped
  | .txr _ => if s.sstate = .send then afterResult s else s.sstate
  | .tb => if s.sstate = .wait ∧ s.tmr = 0#20 then .send else s.sstate
  | .command w =>
    if w = 0x01000000#32 then .stopped
    else if w = 0x41000000#32 ∧ s.sstate = .stopped then .wait
    else if w = 0x42000000#32 ∧ (s.sstate = .stopped ∨ s.sstate = .wait) then .exitCancel
    else if w = 0x43000000#32 ∧ (s.sstate = .stopped ∨ s.sstate = .wait) then .exitFatal
    else s.sstate

/-- The vector the next `start_send` encodes: the last published one not yet taken, else `OUT` (R115). -/
def latest (s : State) : ChanVec := if s.mbxDirty then s.mbx else s.out

/-- Two states agree on everything a `TB` or `TXR` step may read or write (R38). -/
structure SameForScheduler (s t : State) : Prop where
  mbx : s.mbx = t.mbx
  out : s.out = t.out
  txbuf : s.txbuf = t.txbuf
  rate : s.rate = t.rate
  failThr : s.failThr = t.failThr
  statIvl : s.statIvl = t.statIvl
  sstate : s.sstate = t.sstate
  mbxDirty : s.mbxDirty = t.mbxDirty
  tickPend : s.tickPend = t.tickPend
  cancelPend : s.cancelPend = t.cancelPend
  fatalPend : s.fatalPend = t.fatalPend
  failCnt : s.failCnt = t.failCnt
  totalSent : s.totalSent = t.totalSent
  statCnt : s.statCnt = t.statCnt
  tmr : s.tmr = t.tmr
  evt : s.evt = t.evt

/-- Two states agree on everything the CRC, codec and shaper units own, which no `TB` or `TXR` step reads or writes (R38). -/
structure SameForDatapath (s t : State) : Prop where
  ch : s.ch = t.ch
  uch : s.uch = t.uch
  ebuf : s.ebuf = t.ebuf
  rxbuf : s.rxbuf = t.rxbuf
  dz : s.dz = t.dz
  expo : s.expo = t.expo
  tdz : s.tdz = t.tdz
  rev : s.rev = t.rev
  crc : s.crc = t.crc
  shpY : s.shpY = t.shpY
  rxlen : s.rxlen = t.rxlen
  evalid : s.evalid = t.evalid
  dvalid : s.dvalid = t.dvalid
  rxovf : s.rxovf = t.rxovf
  derr : s.derr = t.derr
  rtype : s.rtype = t.rtype
  rplen : s.rplen = t.rplen

/-- `CRC.UPD` of each byte in turn (R65). -/
def feedCrc : List Byte → State → Host.Outcome State Fault Refusal
  | [], s => .next s
  | b :: bs, s =>
    match exec (.crcUpd b) s with
    | .next t => feedCrc bs t
    | .fault f => .fault f
    | .refused r => .refused r

/-- The commands of the CRC, codec and shaper units (groups 0x1, 0x2 and 0x3 of R46). -/
def isDatapath : Instr → Bool
  | .crcInit | .crcUpd _ | .chSet _ _ | .chBtn _ _ | .enc | .rxClr | .rxPush _ | .dec | .unpk
  | .shpAx _ _ | .shpTrg _ _ => true
  | .nop | .reset | .rd _ | .wr _ _ | .rdm _ _ | .schPub | .schStart | .schCancel | .schPclose => false

end Sys2Proof.Safety
end

