-- ==== Sys2Proof/Certificates/Slice0/Obligations.lean ====
section
/-! DEFINITION. The statements for the provers. Each is about the model's `exec`, `step`, `decode` or the functions they call;
a command's new state is written out as an update of the state before it, so every field not named keeps its value.

A statement with basis "derived" says in its docstring which sentence of the spec it rests on: a law the spec itself marks as
derived from its rules, or the model's own choice with its log entry. -/

open Sys2Proof Sys2Proof.Machine Sys2Proof.Safety

/-! ## Encoding and decoding -/

/-- Decoding the word of any well-formed command gives the command back (the last sentence of `30_encoding.md` section 8,
which the spec marks as derived from its encoding rules). -/
def Obligations.DecodeInvertsEncode : Prop :=
  ∀ i : Instr, i.wellFormed = true → decode (encode i) = .command i

/-- Encoding what a word decodes to gives the word back, and every decoded command is well formed (the last sentence of
`30_encoding.md` section 8, which the spec marks as derived). -/
def Obligations.EncodeInvertsDecode : Prop :=
  ∀ (w : Word) (i : Instr), decode w = .command i → encode i = w ∧ i.wellFormed = true

/-- Illegal and reserved words (R48): which opcodes are undefined, what undefined opcodes and reserved bits answer, that
nothing else changes, the two registers whose writes ignore high immediate bits, and the two extreme words. -/
def Obligations.IllegalAndReservedWords : Prop :=
  (∀ op : BitVec 8, opcodeMasks.lookup op = none ↔
    (0x05 ≤ op.toNat ∧ op.toNat ≤ 0x0F) ∨ (0x12 ≤ op.toNat ∧ op.toNat ≤ 0x1F) ∨ (0x27 ≤ op.toNat ∧ op.toNat ≤ 0x2F) ∨
      (0x32 ≤ op.toNat ∧ op.toNat ≤ 0x3F) ∨ (0x44 ≤ op.toNat ∧ op.toNat ≤ 0xFF)) ∧
  (∀ (w : Word) (s : State), opcodeMasks.lookup (w.extractLsb' 24 8) = none →
    runWord w s = .next (respond .illegal 0#32 s)) ∧
  (∀ (w mask : Word) (s : State), opcodeMasks.lookup (w.extractLsb' 24 8) = some mask → w &&& mask ≠ 0#32 →
    runWord w s = .next (respond .rsvd 0#32 s)) ∧
  (∀ (v v' : BitVec 16) (s : State), v.extractLsb' 0 5 = v'.extractLsb' 0 5 →
    runWord (0x031D#16 ++ v) s = runWord (0x031D#16 ++ v') s ∧ runWord (0x0337#16 ++ v) s = runWord (0x0337#16 ++ v') s ∧
      (∃ t, runWord (0x031D#16 ++ v) s = .next (respond .ok 0#32 t)) ∧
      (∃ t, runWord (0x0337#16 ++ v) s = .next (respond .ok 0#32 t))) ∧
  decode 0x00000000#32 = .command .nop ∧ decode 0xFFFFFFFF#32 = .illegal

/-- A few words written out from the encoding tables decode to the commands they stand for (a sanity statement). -/
def Obligations.SampleWordsDecode : Prop :=
  decode 0x3002E000#32 = .command (.shpAx 2 0xE000#16) ∧ decode 0x021A0000#32 = .command (.rd 0x1A) ∧
  decode 0x03151333#32 = .command (.wr 0x15 4915#16) ∧ decode 0x04030007#32 = .command (.rdm 3 7) ∧
  decode 0x11000031#32 = .command (.crcUpd 0x31#8) ∧ decode 0x21040001#32 = .command (.chBtn 4 true) ∧
  decode 0x43000000#32 = .command .schPclose

/-! ## Steps, statuses and the order of inputs -/

/-- A step takes the next input presented and runs it on the state in which it is no longer presented: a command word runs the
command it decodes to, any other input its own step; with nothing presented nothing changes. The word `withFetchWord`
presents is the very next command run (how inputs are presented is the model's choice, log entries 1, 3 and 4). -/
def Obligations.StepRunsDecodedCommand : Prop :=
  (∀ (s : State) (w : Word) (rest : List Arrival) (i : Instr),
    takeInput s.inputs = some (.command w, rest) → decode w = .command i →
      step s = exec i { s with inputs := rest }) ∧
  (∀ (s : State) (inp : Input) (rest : List Arrival), takeInput s.inputs = some (inp, rest) →
    step s = runInput inp { s with inputs := rest }) ∧
  (∀ s : State, takeInput s.inputs = none → step s = .next s) ∧
  ∀ (s : State) (w : Nat) (i : Instr), decode (BitVec.ofNat 32 (w % 2 ^ 32)) = .command i →
    step (s.withFetchWord 32 w) = exec i s

/-- "No operation of the block traps, aborts, halts the block or leaves a partial result" (R130): every step answers a next
state; every command word, well formed or not, gets exactly one response; and a failure changes nothing but that response. -/
def Obligations.EveryStepCompletes : Prop :=
  (∀ s : State, ∃ t, step s = .next t) ∧
  (∀ (w : Word) (s : State), ∃ t evs st d, runWord w s = .next t ∧ t.trace = s.trace ++ evs ++ [.response st d] ∧
    evs.all (fun o => !isResponse o) = true ∧ (st ≠ .ok → d = 0#32 ∧ t = respond st 0#32 s)) ∧
  (∀ (inp : Input) (s : State), (∀ w, inp ≠ .command w) → ∃ t evs, runInput inp s = .next t ∧
    t.trace = s.trace ++ evs ∧ evs.all (fun o => !isResponse o) = true)

/-- The status of every command word in every state is the first failing check of R134, in the order opcode, reserved bits,
index, read-only, precondition; with the rule's four example words, the decode checks of `DEC` in the order of R131, and the
3-bit code of each status (R47). -/
def Obligations.StatusIsFirstFailingCheck : Prop :=
  (∀ (w : Word) (s : State), ∃ t evs d, runWord w s = .next t ∧
    t.trace = s.trace ++ evs ++ [.response (statusOf w s) d]) ∧
  (∀ s : State, statusOf 0x050000FF#32 s = .illegal ∧ statusOf 0x02500001#32 s = .rsvd ∧
    statusOf 0x03500001#32 s = .badIdx ∧ statusOf 0x03200001#32 s = .rdOnly) ∧
  (∀ s : State, ∃ t, exec .dec s = .next t ∧
    let buf := s.rxbuf.readBytes 0 s.rxlen.toNat
    let len := (buf.getD 1 0#8).toNat
    t.derr = if buf.length < 4 then .short else if buf.getD 0 0#8 ≠ 0xC8#8 then .sync
      else if len < 2 ∨ 62 < len then .len else if buf.length < 2 + len then .trunc
      else if crc8 ((buf.drop 1).take len) ≠ buf.getD (1 + len) 0#8 then .crc else .ok) ∧
  statusCode .ok = 0#3 ∧ statusCode .illegal = 1#3 ∧ statusCode .rsvd = 2#3 ∧ statusCode .badIdx = 3#3 ∧
  statusCode .refused = 4#3 ∧ statusCode .rdOnly = 5#3

/-- Inputs presented at one instant are taken as separate steps in the order `HRESET`, `TXR`, `TB`, command; and the
consequences drawn from it: a result that arrives with a tick is counted first, so the tick starts a send; a publish that
arrives with a tick is not taken by that tick's send; a result and a pulse after a reset in the same instant find `STOPPED`
and do nothing (`60_exceptions.md` section 4; that an instant is one entry of `inputs` is the model's choice, log
entry 1). -/
def Obligations.SimultaneousInputsInOrder : Prop :=
  (∀ (s : State) (ok : Bool) (w : Word) (later : List Arrival), s.inputs = ⟨true, some ok, true, some w⟩ :: later →
    ∃ s₁ s₂ s₃ s₄, step s = .next s₁ ∧ step s₁ = .next s₂ ∧ step s₂ = .next s₃ ∧ step s₃ = .next s₄ ∧
      runInput .hreset { s with inputs := ⟨false, some ok, true, some w⟩ :: later } = .next s₁ ∧
      runInput (.txr ok) { s₁ with inputs := ⟨false, none, true, some w⟩ :: later } = .next s₂ ∧
      runInput .tb { s₂ with inputs := ⟨false, none, false, some w⟩ :: later } = .next s₃ ∧
      runInput (.command w) { s₃ with inputs := later } = .next s₄ ∧ AtResetValues s₃) ∧
  (∀ (s : State) (ok : Bool) (later : List Arrival), s.inputs = ⟨false, some ok, true, none⟩ :: later →
    s.sstate = .send → s.tmr = 0#20 → s.fatalPend = false → s.cancelPend = false → s.tickPend = false →
    ∃ t u, step s = .next t ∧ step t = .next u ∧ t.sstate = .wait ∧ u.sstate = .send ∧ u.tickPend = false ∧
      u.out = latest s ∧ u.trace = t.trace ++ [.txReq (frame (latest s))]) ∧
  ∀ (s : State) (later : List Arrival), s.inputs = ⟨false, none, true, some 0x40000000#32⟩ :: later →
    s.sstate = .wait → s.tmr = 0#20 →
    ∃ t u, step s = .next t ∧ step t = .next u ∧ u.sstate = .send ∧ u.out = latest s ∧ u.mbxDirty = true ∧
      u.mbx = reverseVec s.rev s.ch

/-! ## The invariant and reset -/

/-- Every step keeps the invariant of `10_state.md` section 11, from every state that meets it (the spec marks the invariant
as derived from its rules; the canonical form of the buffers in it is the model's, log entry 5). -/
def Obligations.StepKeepsInv : Prop := ∀ s t : State, Inv s → step s = .next t → Inv t

/-- The state after reset meets the invariant of `10_state.md` section 11 (which the spec marks as derived). -/
def Obligations.ResetHasInv : Prop := Inv State.reset

/-- The reset step sets every piece of state to the value of R27's table, emits nothing, and leaves `irq` low, `PERIOD`
4000 and `WARN` 0 (R140); so do the values of the state after reset itself. -/
def Obligations.HresetGivesResetValues : Prop :=
  (∀ (s : State) (rest : List Arrival), takeInput s.inputs = some (.hreset, rest) →
    ∃ t, step s = .next t ∧ AtResetValues t ∧ t.inputs = rest ∧ t.trace = s.trace ∧ irq t = false ∧ period t = 4000 ∧
      warn t = false) ∧
  AtResetValues State.reset

/-! ## Host access commands -/

/-- `NOP` (R53). -/
def Obligations.NopDoesNothing : Prop :=
  decode 0x00000000#32 = .command .nop ∧ (∀ x : BitVec 24, x ≠ 0#24 → decode (0x00#8 ++ x) = .reserved) ∧
  ∀ s : State, exec .nop s = .next (respond .ok 0#32 s)

/-- `RESET` (R54): every piece of state at its reset value, `OK 0`, no event; a later result for an abandoned frame is
ignored; and no other word leads out of the `EXIT` states. -/
def Obligations.ResetCommandResets : Prop :=
  decode 0x01000000#32 = .command .reset ∧ (∀ x : BitVec 24, x ≠ 0#24 → decode (0x01#8 ++ x) = .reserved) ∧
  (∀ s : State, ∃ t, exec .reset s = .next t ∧ AtResetValues t ∧ t.inputs = s.inputs ∧
    t.trace = s.trace ++ [.response .ok 0#32] ∧ irq t = false ∧ ∀ ok, runInput (.txr ok) t = .next t) ∧
  ∀ (s t : State) (w : Word), s.sstate = .exitCancel ∨ s.sstate = .exitFatal → w ≠ 0x01000000#32 →
    runWord w s = .next t → t.sstate = s.sstate

/-- `RD` (R55): every existing register reads as tabulated, zero-extended, `DERR` and `SSTATE` by the code of each of their
values; every other number is refused, and no read changes any state. -/
def Obligations.RdReadsRegister : Prop :=
  (∀ r : BitVec 8, decode (0x02#8 ++ r ++ 0#16) = .command (.rd r.toNat)) ∧
  (∀ (r : BitVec 8) (x : BitVec 16), x ≠ 0#16 → decode (0x02#8 ++ r ++ x) = .reserved) ∧
  (∀ (s : State) (r v : Nat), (r, v) ∈ registerValues s →
    exec (.rd r) s = .next (respond .ok (BitVec.ofNat 32 v) s) ∧ v < 2 ^ 32) ∧
  (∀ (s : State) (r : Nat), registerExists r = false → exec (.rd r) s = .next (respond .badIdx 0#32 s)) ∧
  (∀ (s : State) (r : Nat), registerExists r = true ↔ ∃ v, (r, v) ∈ registerValues s) ∧
  (∀ s : State, exec (.rd 0x24) s = .next (respond .ok
    (match s.derr with | .ok => 0#32 | .short => 1#32 | .sync => 2#32 | .len => 3#32 | .trunc => 4#32 | .crc => 5#32) s)) ∧
  ∀ s : State, exec (.rd 0x30) s = .next (respond .ok
    (match s.sstate with | .stopped => 0#32 | .wait => 1#32 | .send => 2#32 | .exitCancel => 3#32 | .exitFatal => 4#32) s)

/-- `WR` (R56): each writable register takes the value its write function gives, and nothing else changes, `TMR` and
`STAT_CNT` among the rest; a register that does not exist is refused, and so is one that exists and is read-only. -/
def Obligations.WrStoresLegalValue : Prop :=
  (∀ (r : BitVec 8) (v : BitVec 16), decode (0x03#8 ++ r ++ v) = .command (.wr r.toNat v)) ∧
  (∀ (s : State) (v : BitVec 16) (a : Fin 4), ∃ d : BitVec 13, (d.toNat : Int) = min (max v.toInt 0) 4096 ∧
    exec (.wr (0x10 + a.val) v) s = .next (respond .ok 0#32 { s with dz := s.dz.set a d })) ∧
  (∀ (s : State) (v : BitVec 16) (a : Fin 4), ∃ e : BitVec 15, (e.toNat : Int) = min (max v.toInt 0) 16384 ∧
    exec (.wr (0x14 + a.val) v) s = .next (respond .ok 0#32 { s with expo := s.expo.set a e })) ∧
  (∀ (s : State) (v : BitVec 16), ∃ d : BitVec 13, (d.toNat : Int) = min (max v.toInt 0) 4096 ∧
    exec (.wr 0x18 v) s = .next (respond .ok 0#32 { s with tdz := d })) ∧
  (∀ (s : State) (v : BitVec 16), exec (.wr 0x19 v) s = .next (respond .ok 0#32 { s with rev := v })) ∧
  (∀ (s : State) (v : BitVec 16), v ≠ 0#16 → exec (.wr 0x1A v) s = .next (respond .ok 0#32 { s with rate := v })) ∧
  (∀ s : State, exec (.wr 0x1A 0#16) s = .next (respond .ok 0#32 { s with rate := 1#16 })) ∧
  (∀ (s : State) (v : BitVec 16), exec (.wr 0x1B v) s = .next (respond .ok 0#32 { s with failThr := v })) ∧
  (∀ (s : State) (v : BitVec 16), exec (.wr 0x1C v) s = .next (respond .ok 0#32 { s with statIvl := v })) ∧
  (∀ (s : State) (v : BitVec 16), ∃ m : BitVec 5, m.toNat = v.toNat % 32 ∧
    exec (.wr 0x1D v) s = .next (respond .ok 0#32 { s with ien := m })) ∧
  (∀ (s : State) (v : BitVec 16), ∃ e : BitVec 5,
    (∀ k, k < 5 → e.getLsbD k = (s.evt.getLsbD k && !v.getLsbD k)) ∧
    exec (.wr 0x37 v) s = .next (respond .ok 0#32 { s with evt := e })) ∧
  (∀ (s : State) (r : Nat) (v : BitVec 16), registerExists r = false →
    exec (.wr r v) s = .next (respond .badIdx 0#32 s)) ∧
  ∀ (s : State) (r : Nat) (v : BitVec 16), registerReadOnly r = true →
    exec (.wr r v) s = .next (respond .rdOnly 0#32 s)

/-- `RDM` (R57): every element of every space, zero-extended; an element or a space that does not exist is refused. -/
def Obligations.RdmReadsElement : Prop :=
  (∀ (sp : BitVec 8) (off : BitVec 16), decode (0x04#8 ++ sp ++ off) = .command (.rdm sp.toNat off.toNat)) ∧
  (∀ (s : State) (i : Fin 16),
    exec (.rdm 0 i.val) s = .next (respond .ok (BitVec.ofNat 32 s.ch[i].toNat) s) ∧
    exec (.rdm 1 i.val) s = .next (respond .ok (BitVec.ofNat 32 s.uch[i].toNat) s) ∧
    exec (.rdm 2 i.val) s = .next (respond .ok (BitVec.ofNat 32 s.mbx[i].toNat) s) ∧
    exec (.rdm 3 i.val) s = .next (respond .ok (BitVec.ofNat 32 s.out[i].toNat) s)) ∧
  (∀ (s : State) (k : Nat), k < 26 →
    exec (.rdm 4 k) s = .next (respond .ok (BitVec.ofNat 32 (s.ebuf.read k).toNat) s) ∧
    exec (.rdm 5 k) s = .next (respond .ok (BitVec.ofNat 32 (s.txbuf.read k).toNat) s)) ∧
  (∀ (s : State) (k : Nat), k < 64 →
    exec (.rdm 6 k) s = .next (respond .ok (BitVec.ofNat 32 (s.rxbuf.read k).toNat) s)) ∧
  (∀ (s : State) (b : Byte),
    exec (.rdm 7 b.toNat) s = .next (respond .ok (BitVec.ofNat 32 (crcStepBitwise 0#8 b).toNat) s)) ∧
  (∀ (s : State) (j : Nat), j ≤ 64 →
    exec (.rdm 8 j) s = .next (respond .ok (BitVec.ofNat 32 ((j * j * j + 8) / 16)) s)) ∧
  ∀ (s : State) (sp off : Nat), 8 < sp ∨ spaceSizes.getD sp 0 ≤ off →
    exec (.rdm sp off) s = .next (respond .badIdx 0#32 s)

/-! ## CRC unit -/

/-- The table-driven step and the bitwise step agree on every register value and byte (R62). -/
def Obligations.TableStepAgreesWithBitwise : Prop :=
  ∀ c b : Byte, crcStepTable c b = crcTab (c ^^^ b) ∧ crcStepTable c b = crcStepBitwise c b

/-- `CRC.INIT` (R64). -/
def Obligations.CrcInitClears : Prop :=
  decode 0x10000000#32 = .command .crcInit ∧ (∀ x : BitVec 24, x ≠ 0#24 → decode (0x10#8 ++ x) = .reserved) ∧
  ∀ s : State, exec .crcInit s = .next (respond .ok 0#32 { s with crc := 0x00#8 })

/-- `CRC.UPD` (R65): one step of the table, which is one bitwise step, answered in `data[7:0]`; no word but a `CRC.UPD`,
`CRC.INIT` or `RESET` changes the running CRC. -/
def Obligations.CrcUpdSteps : Prop :=
  (∀ b : Byte, decode (0x11#8 ++ 0#16 ++ b) = .command (.crcUpd b)) ∧
  (∀ (x : BitVec 16) (b : Byte), x ≠ 0#16 → decode (0x11#8 ++ x ++ b) = .reserved) ∧
  (∀ (s : State) (b : Byte), ∃ c : Byte, c = crcTab (s.crc ^^^ b) ∧ c = crcStepBitwise s.crc b ∧
    exec (.crcUpd b) s = .next (respond .ok (BitVec.ofNat 32 c.toNat) { s with crc := c })) ∧
  (∀ s : State, s.crc = 0x00#8 → exec (.crcUpd 0x00#8) s = .next (respond .ok 0#32 s)) ∧
  (∀ s : State, exec (.crcUpd s.crc) s = .next (respond .ok 0#32 { s with crc := 0x00#8 })) ∧
  ∀ (s t : State) (w : Word), w ≠ 0x10000000#32 → w ≠ 0x01000000#32 → w.extractLsb' 24 8 ≠ 0x11#8 →
    runWord w s = .next t → t.crc = s.crc

/-- `CRC.INIT` followed by `CRC.UPD` of each byte leaves `crc8` of the bytes in `CRC`, and every other field but the trace as it
was (the last sentence before the commands in `41_crc.md` section 2, which the spec marks as derived). -/
def Obligations.StreamingCrcEqualsBufferCrc : Prop :=
  ∀ (bs : List Byte) (s : State), ∃ t u, exec .crcInit s = .next t ∧ feedCrc bs t = .next u ∧
    u = { s with crc := crc8 bs, trace := u.trace }

/-- A list followed by its CRC has CRC 0, leading zero bytes do not change a CRC, and every single-bit change of a list followed
by its CRC is detected (`41_crc.md`, the last two consequences of section 1 and the first sentence of section 3, which the
spec marks as derived). -/
def Obligations.CrcDetectsEverySingleBitChange : Prop :=
  (∀ bs : List Byte, crc8 (bs ++ [crc8 bs]) = 0x00#8) ∧ (∀ bs : List Byte, crc8 (0x00#8 :: bs) = crc8 bs) ∧
  ∀ (bs : List Byte) (k j : Nat), k ≤ bs.length → j < 8 →
    crc8 ((bs ++ [crc8 bs]).modify k (fun b => b ^^^ (1#8 <<< j))) ≠ 0x00#8

/-! ## Codec unit -/

/-- The packed payload (R72): 22 bytes, and bit `j` of channel `i` is bit `(11i + j) mod 8` of byte `(11i + j) // 8`. -/
def Obligations.PackPlacesEveryBit : Prop :=
  ∀ v : ChanVec, (pack v).length = 22 ∧ ∀ (i : Fin 16) (j : Nat), j < 11 →
    ((pack v).getD ((11 * i.val + j) / 8) 0#8).getLsbD ((11 * i.val + j) % 8) = v[i].getLsbD j

/-- The packer and the unpacker are inverse bijections, the unpacker uses only the first 22 bytes, and each channel comes from
the three bytes it may span, a byte beyond the payload taken as 0 (`42_codec.md` section 2, the formula under the table of
spans and the sentence after it, which the spec marks as derived). -/
def Obligations.PackAndUnpackAreInverse : Prop :=
  (∀ v : ChanVec, unpack (pack v) = v) ∧ (∀ p : List Byte, 22 ≤ p.length → pack (unpack p) = p.take 22) ∧
  ∀ (p : List Byte) (i : Fin 16), 22 ≤ p.length →
    ((unpack p)[i]).toNat =
      (((p.getD (11 * i.val / 8) 0#8).toNat + (p.getD (11 * i.val / 8 + 1) 0#8).toNat * 2 ^ 8 +
        ((p.take 22).getD (11 * i.val / 8 + 2) 0#8).toNat * 2 ^ 16) / 2 ^ (11 * i.val % 8)) % 2 ^ 11

/-- The RC channel frame (R74): the bytes 0xC8, 0x18, 0x16, the packed vector, and the CRC of the 24 bytes between the sync
byte and it. -/
def Obligations.FrameHasItsLayout : Prop :=
  ∀ v : ChanVec, (frame v).length = 26 ∧ (frame v).getD 0 0#8 = 0xC8#8 ∧ (frame v).getD 1 0#8 = 0x18#8 ∧
    (frame v).getD 2 0#8 = 0x16#8 ∧ ((frame v).drop 3).take 22 = pack v ∧
    (frame v).getD 25 0#8 = crc8 (((frame v).drop 1).take 24)

/-- The frame check (R75): the first check that fails decides, in the order written, and bytes beyond the CRC are ignored. -/
def Obligations.FrameCheckInOrder : Prop :=
  (∀ buf : List Byte, buf.length < 4 → decodeFrame buf = ⟨.short, 0#8, 0⟩) ∧
  (∀ buf : List Byte, 4 ≤ buf.length → buf.getD 0 0#8 ≠ 0xC8#8 → decodeFrame buf = ⟨.sync, 0#8, 0⟩) ∧
  (∀ (len : Byte) (x y : Byte) (more : List Byte), len.toNat < 2 ∨ 62 < len.toNat →
    decodeFrame (0xC8#8 :: len :: x :: y :: more) = ⟨.len, 0#8, 0⟩) ∧
  (∀ (len : Byte) (body : List Byte), 2 ≤ len.toNat → len.toNat ≤ 62 → 2 ≤ body.length → body.length < len.toNat →
    decodeFrame (0xC8#8 :: len :: body) = ⟨.trunc, 0#8, 0⟩) ∧
  (∀ (len type crc : Byte) (payload more : List Byte), len.toNat = payload.length + 2 → len.toNat ≤ 62 →
    crc8 (len :: type :: payload) ≠ crc →
    decodeFrame (0xC8#8 :: len :: type :: (payload ++ crc :: more)) = ⟨.crc, 0#8, 0⟩) ∧
  (∀ (len type crc : Byte) (payload more : List Byte), len.toNat = payload.length + 2 → len.toNat ≤ 62 →
    crc8 (len :: type :: payload) = crc →
    decodeFrame (0xC8#8 :: len :: type :: (payload ++ crc :: more)) = ⟨.ok, type, payload.length⟩)

/-- The round trip: decoding the frame of any vector succeeds, with type 0x16 and 22 payload bytes, and unpacking that payload
gives the vector (`42_codec.md` section 3, law (a), which the spec marks as derived). -/
def Obligations.FrameRoundTrip : Prop :=
  ∀ v : ChanVec, decodeFrame (frame v) = ⟨.ok, 0x16#8, 22⟩ ∧ unpack (((frame v).drop 3).take 22) = v

/-- Where each single-bit change of a frame is caught: in the sync byte, in the length byte by its bit, and in every byte
after it (`42_codec.md` section 3, law (b), which the spec marks as derived; the two changes that shorten the length are
caught unless a payload byte equals the CRC of the shortened prefix). -/
def Obligations.SingleBitFlipOfFrameIsCaught : Prop :=
  ∀ (v : ChanVec) (j : Nat), j < 8 →
    (decodeFrame ((frame v).modify 0 (fun b => b ^^^ (1#8 <<< j)))).err = .sync ∧
    ((j = 6 ∨ j = 7) → (decodeFrame ((frame v).modify 1 (fun b => b ^^^ (1#8 <<< j)))).err = .len) ∧
    ((j = 0 ∨ j = 1 ∨ j = 2 ∨ j = 5) →
      (decodeFrame ((frame v).modify 1 (fun b => b ^^^ (1#8 <<< j)))).err = .trunc) ∧
    (j = 3 → crc8 (0x10#8 :: ((frame v).drop 2).take 15) ≠ (frame v).getD 17 0#8 →
      (decodeFrame ((frame v).modify 1 (fun b => b ^^^ (1#8 <<< j)))).err = .crc) ∧
    (j = 4 → crc8 (0x08#8 :: ((frame v).drop 2).take 7) ≠ (frame v).getD 9 0#8 →
      (decodeFrame ((frame v).modify 1 (fun b => b ^^^ (1#8 <<< j)))).err = .crc) ∧
    ∀ k : Nat, 2 ≤ k → k < 26 → (decodeFrame ((frame v).modify k (fun b => b ^^^ (1#8 <<< j)))).err = .crc

/-- `CH.SET` (R82). -/
def Obligations.ChSetStoresClamped : Prop :=
  (∀ (c : BitVec 8) (v : BitVec 16), decode (0x20#8 ++ c ++ v) = .command (.chSet c.toNat v)) ∧
  (∀ (s : State) (c : Fin 16) (v : BitVec 16), ∃ x : Chan, x.toNat = min v.toNat 2047 ∧
    exec (.chSet c.val v) s = .next (respond .ok (BitVec.ofNat 32 x.toNat) { s with ch := s.ch.set c x })) ∧
  ∀ (s : State) (c : Nat) (v : BitVec 16), 15 < c → exec (.chSet c v) s = .next (respond .badIdx 0#32 s)

/-- `ENC` (R77): `EBUF` is the frame of the staging vector, `EVALID` is set, the CRC byte is answered, nothing else changes;
with the three vectors the rule names. -/
def Obligations.EncBuildsFrame : Prop :=
  decode 0x22000000#32 = .command .enc ∧ (∀ x : BitVec 24, x ≠ 0#24 → decode (0x22#8 ++ x) = .reserved) ∧
  (∀ s : State, ∃ m : Memory, m.readBytes 0 26 = frame s.ch ∧ (∀ k, 26 ≤ k → m.read k = 0x00#8) ∧
    exec .enc s = .next (respond .ok (BitVec.ofNat 32 (m.read 25).toNat) { s with ebuf := m, evalid := true })) ∧
  pack (Vector.replicate 16 0#11) = List.replicate 22 0x00#8 ∧ (frame (Vector.replicate 16 0#11)).getD 25 0#8 = 0x6E#8 ∧
  pack (Vector.replicate 16 2047#11) = List.replicate 22 0xFF#8 ∧
  (frame (Vector.replicate 16 2047#11)).getD 25 0#8 = 0x0E#8 ∧ (frame (Vector.replicate 16 1024#11)).getD 25 0#8 = 0xAE#8

/-- `RX.CLR` (R79): the bytes of `RXBUF` and `UCH` stay. -/
def Obligations.RxClrEmptiesBuffer : Prop :=
  decode 0x23000000#32 = .command .rxClr ∧ (∀ x : BitVec 24, x ≠ 0#24 → decode (0x23#8 ++ x) = .reserved) ∧
  ∀ s : State, exec .rxClr s = .next (respond .ok 0#32 { s with
    rxlen := 0#7, rxovf := false, dvalid := false, derr := .ok, rtype := 0x00#8, rplen := 0#6 })

/-- `RX.PUSH` (R80): the byte is stored at index `RXLEN` and at no other, or discarded when the buffer is full. (The premise that
the buffer is in canonical form is the model's, log entry 5; every state the invariant allows meets it.) -/
def Obligations.RxPushStoresOrOverflows : Prop :=
  (∀ b : Byte, decode (0x24#8 ++ 0#16 ++ b) = .command (.rxPush b)) ∧
  (∀ (x : BitVec 16) (b : Byte), x ≠ 0#16 → decode (0x24#8 ++ x ++ b) = .reserved) ∧
  (∀ (s : State) (b : Byte), s.rxbuf.wf = true → s.rxlen.toNat < 64 → ∃ (m : Memory) (n : BitVec 7),
    m.read s.rxlen.toNat = b ∧ (∀ k, k ≠ s.rxlen.toNat → m.read k = s.rxbuf.read k) ∧ n.toNat = s.rxlen.toNat + 1 ∧
    exec (.rxPush b) s = .next (respond .ok (BitVec.ofNat 32 n.toNat)
      { s with rxbuf := m, rxlen := n, dvalid := false })) ∧
  ∀ (s : State) (b : Byte), s.rxlen.toNat = 64 →
    exec (.rxPush b) s = .next (respond .ok 64#32 { s with rxovf := true })

/-- `DEC` (R78): the registers take what the frame check finds in `RXBUF[0..RXLEN)`, the code is answered, nothing else
changes, and a repeated `DEC` finds the same. The code is the number R75 gives each finding (`derrNumber`). -/
def Obligations.DecRecordsFrameCheck : Prop :=
  decode 0x25000000#32 = .command .dec ∧ (∀ x : BitVec 24, x ≠ 0#24 → decode (0x25#8 ++ x) = .reserved) ∧
  (∀ s : State, ∃ (d : DecodeResult) (pl : BitVec 6), d = decodeFrame (s.rxbuf.readBytes 0 s.rxlen.toNat) ∧
    pl.toNat = d.plen ∧ exec .dec s = .next (respond .ok (BitVec.ofNat 32 (derrNumber d.err))
      { s with derr := d.err, rtype := d.type, rplen := pl, dvalid := decide (d.err = .ok) })) ∧
  (∀ s t u : State, exec .dec s = .next t → exec .dec t = .next u →
    u = { t with trace := u.trace } ∧ u.trace = t.trace ++ [.response .ok (BitVec.ofNat 32 (derrNumber t.derr))]) ∧
  ∀ s : State, s.rxlen = 0#7 → ∃ t, exec .dec s = .next t ∧ t.derr = .short

/-- `UNPK` (R81). -/
def Obligations.UnpkUnpacksDecodedFrame : Prop :=
  decode 0x26000000#32 = .command .unpk ∧ (∀ x : BitVec 24, x ≠ 0#24 → decode (0x26#8 ++ x) = .reserved) ∧
  (∀ s : State, s.dvalid = true → 22 ≤ s.rplen.toNat →
    exec .unpk s = .next (respond .ok 0#32 { s with uch := unpack (s.rxbuf.readBytes 3 22) })) ∧
  ∀ s : State, s.dvalid = false ∨ s.rplen.toNat < 22 → exec .unpk s = .next (respond .refused 0#32 s)

/-! ## Shaper unit -/

/-- Deadzone rescale (R90): the result's range, full travel, the deadzone and its edge, no deadzone, monotone. -/
def Obligations.DeadzoneRescaleLaws : Prop :=
  ∀ dz : Nat, dz ≤ 4096 →
    (∀ m, m ≤ dz → dzscale m dz = 0) ∧ (∀ m, dz < m → m ≤ 16384 → dzscale m dz = ((m - dz) * 2 ^ 14) / (16384 - dz)) ∧
    (∀ m, m ≤ 16384 → dzscale m dz ≤ 16384) ∧ dzscale 16384 dz = 16384 ∧ dzscale (dz + 1) dz = 1 ∧
    (∀ m, m ≤ 16384 → dzscale m 0 = m) ∧ ∀ m m', m ≤ m' → m' ≤ 16384 → dzscale m dz ≤ dzscale m' dz

/-- The cube table and the cube by interpolation (R91, R92). -/
def Obligations.CubeLaws : Prop :=
  (∀ j, j ≤ 64 → cubeTab j = (j * j * j + 8) / 16 ∧ cubeTab j ≤ 256 * j) ∧
  (∀ j, j < 64 → cubeTab j ≤ cubeTab (j + 1)) ∧ cubeTab 0 = 0 ∧ cubeTab 64 = 16384 ∧
  (∀ r, r < 16384 → cube r =
    cubeTab (r / 256) + ((cubeTab (r / 256 + 1) - cubeTab (r / 256)) * (r % 256)) / 256) ∧
  (∀ j, j ≤ 64 → cube (256 * j) = cubeTab j) ∧ cube 0 = 0 ∧ cube 16384 = 16384 ∧
  (∀ r r', r ≤ r' → r' ≤ 16384 → cube r ≤ cube r') ∧ ∀ r, r ≤ 16384 → cube r ≤ r

/-- The expo blend (R93). -/
def Obligations.BlendLaws : Prop :=
  (∀ r c e, r ≤ 16384 → c ≤ r → e ≤ 16384 →
    blend r c e = ((16384 - e) * r + e * c + 8192) / 2 ^ 14 ∧ blend r c e ≤ r) ∧
  (∀ r c, blend r c 0 = r) ∧ (∀ r c, blend r c 16384 = c) ∧ (∀ e, e ≤ 16384 → blend 16384 16384 e = 16384) ∧
  ∀ e, blend 0 0 e = 0

/-- The axis curve for every sample and every legal profile: the blend of the rescaled magnitude and its cube with the sign
reattached (`43_shaper.md` section 3, the pseudocode of R94), and its laws: endpoints, deadzone, odd, bounded by the linear
response, linear at expo 0 and cubic at expo 1 (section 4, laws (a) to (e), which the spec marks as derived). -/
def Obligations.AxisCurveLaws : Prop :=
  ∀ (dz e : Nat), dz ≤ 4096 → e ≤ 16384 →
    shapeAxis 16384#16 dz e = 16384 ∧ shapeAxis (tc16 (-16384)) dz e = -16384 ∧
    (∀ x : BitVec 16, (min (max x.toInt (-16384)) 16384).natAbs ≤ dz →
      shapeAxis x dz e = 0 ∧ mapS (shapeAxis x dz e) = 1024) ∧
    (∀ m : Nat, m ≤ 16384 → shapeAxis (tc16 (-(m : Int))) dz e = -shapeAxis (tc16 (m : Int)) dz e) ∧
    (∀ x : BitVec 16, (shapeAxis x dz e).natAbs ≤ dzscale (min (max x.toInt (-16384)) 16384).natAbs dz) ∧
    (∀ x : BitVec 16, ∃ m : Nat, m = (min (max x.toInt (-16384)) 16384).natAbs ∧
      shapeAxis x dz e = (if x.toInt < 0 then -1 else 1) * (blend (dzscale m dz) (cube (dzscale m dz)) e : Int)) ∧
    (∀ x : BitVec 16, (shapeAxis x dz 0).natAbs = dzscale (min (max x.toInt (-16384)) 16384).natAbs dz) ∧
    ∀ x : BitVec 16, (shapeAxis x dz 16384).natAbs = cube (dzscale (min (max x.toInt (-16384)) 16384).natAbs dz)

/-- The axis curve never falls as the sample rises (`43_shaper.md` section 4, law (f), which the spec marks as derived). -/
def Obligations.AxisCurveIsMonotone : Prop :=
  ∀ (dz e : Nat) (x x' : BitVec 16), dz ≤ 4096 → e ≤ 16384 → x.toInt ≤ x'.toInt →
    shapeAxis x dz e ≤ shapeAxis x' dz e

/-- Both mappings to a channel (R95, R96): the rounded formula, the range, the named points, monotone, and the two places
where the signed mapping is not symmetric. -/
def Obligations.ChannelMappingLaws : Prop :=
  (∀ y : Int, -16384 ≤ y → y ≤ 16384 → (mapS y : Int) = (2047 * (y + 16384) + 16384) / 2 ^ 15 ∧ mapS y ≤ 2047) ∧
  mapS (-16384) = 0 ∧ mapS 0 = 1024 ∧ mapS 16384 = 2047 ∧ mapS (-1) = 1023 ∧ mapS 1 = 1024 ∧ mapS (-8192) = 512 ∧
  mapS 8192 = 1535 ∧ (∀ y y' : Int, -16384 ≤ y → y ≤ y' → y' ≤ 16384 → mapS y ≤ mapS y') ∧
  (∀ t : Nat, t ≤ 16384 → mapU t = (2047 * t + 8192) / 2 ^ 14 ∧ mapU t ≤ 2047) ∧
  mapU 0 = 0 ∧ mapU 8192 = 1024 ∧ mapU 16384 = 2047 ∧ ∀ t t' : Nat, t ≤ t' → t' ≤ 16384 → mapU t ≤ mapU t'

/-- `SHP.AX` (R99): the shaped value in `SHP_Y`, its channel value in `CH[a]`, both answered, nothing else changed; with a
legal profile the channel value is exactly the mapped one. -/
def Obligations.ShpAxShapesAxis : Prop :=
  (∀ (a : BitVec 8) (x : BitVec 16), decode (0x30#8 ++ a ++ x) = .command (.shpAx a.toNat x)) ∧
  (∀ (s : State) (a : Fin 4) (x : BitVec 16), ∃ (y : Int) (v : Chan) (d : Word),
    y = shapeAxis x s.dz[a].toNat s.expo[a].toNat ∧ v = BitVec.ofNat 11 (mapS y) ∧
    d.toNat = v.toNat * 2 ^ 16 + (tc16 y).toNat ∧
    (s.dz[a].toNat ≤ 4096 → s.expo[a].toNat ≤ 16384 → v.toNat = mapS y ∧ (tc16 y).toInt = y) ∧
    exec (.shpAx a.val x) s = .next (respond .ok d { s with shpY := tc16 y, ch := s.ch.set a.val v })) ∧
  (∀ (s : State) (a : Nat) (x : BitVec 16), 3 < a → exec (.shpAx a x) s = .next (respond .badIdx 0#32 s)) ∧
  (∀ dz e : Nat, shapeAxis 0x7FFF#16 dz e = shapeAxis 16384#16 dz e ∧
    shapeAxis 0x8000#16 dz e = shapeAxis (tc16 (-16384)) dz e ∧ shapeAxis 0#16 dz e = 0) ∧
  (∀ y : Int, -16384 ≤ y → y ≤ 16384 → shapeAxis (tc16 y) 0 0 = y) ∧ ∀ dz : Nat, dz ≤ 4096 → shapeAxis 100#16 dz 16384 = 0

/-- `SHP.TRG` (R100, with R97): the sample read as signed, clamped to 0..16384 and rescaled; no expo. -/
def Obligations.ShpTrgShapesTrigger : Prop :=
  (∀ (c : BitVec 8) (x : BitVec 16), decode (0x31#8 ++ c ++ x) = .command (.shpTrg c.toNat x)) ∧
  (∀ (s : State) (c : Fin 16) (x : BitVec 16), ∃ (t : Nat) (v : Chan) (y : BitVec 16) (d : Word),
    t = dzscale (min (max x.toInt 0) 16384).toNat s.tdz.toNat ∧ v.toNat = mapU t ∧ y.toNat = t ∧
    d.toNat = v.toNat * 2 ^ 16 + t ∧
    exec (.shpTrg c.val x) s = .next (respond .ok d { s with shpY := y, ch := s.ch.set c v })) ∧
  (∀ (s : State) (c : Nat) (x : BitVec 16), 15 < c → exec (.shpTrg c x) s = .next (respond .badIdx 0#32 s)) ∧
  ∀ tdz : Nat, tdz ≤ 4096 → shapeTrigger 0#16 tdz = 0 ∧ shapeTrigger 0xFFFB#16 tdz = 0 ∧
    shapeTrigger 20000#16 tdz = 16384

/-- `CH.BTN` (R101): pressed 2047, released 0; a reversed channel publishes the opposite. -/
def Obligations.ChBtnWritesButton : Prop :=
  (∀ (c : BitVec 8), decode (0x21#8 ++ c ++ 1#16) = .command (.chBtn c.toNat true) ∧
    decode (0x21#8 ++ c ++ 0#16) = .command (.chBtn c.toNat false)) ∧
  (∀ (c : BitVec 8) (x : BitVec 16), 1 < x.toNat → decode (0x21#8 ++ c ++ x) = .reserved) ∧
  (∀ (s : State) (c : Fin 16),
    exec (.chBtn c.val true) s = .next (respond .ok 2047#32 { s with ch := s.ch.set c 2047#11 }) ∧
    exec (.chBtn c.val false) s = .next (respond .ok 0#32 { s with ch := s.ch.set c 0#11 })) ∧
  (∀ (s : State) (c : Nat) (p : Bool), 15 < c → exec (.chBtn c p) s = .next (respond .badIdx 0#32 s)) ∧
  reverseChan true 2047#11 = 0#11 ∧ reverseChan true 0#11 = 2047#11

/-! ## Scheduler unit -/

/-- `SCH.PUB` (R111): the staging vector, reversed as R102 has it, is copied to the mailbox and marked untaken; the previous
mark is answered; it works in every scheduler state. The reversal is an involution. -/
def Obligations.SchPubPublishes : Prop :=
  decode 0x40000000#32 = .command .schPub ∧ (∀ x : BitVec 24, x ≠ 0#24 → decode (0x40#8 ++ x) = .reserved) ∧
  (∀ s : State, ∃ m : ChanVec,
    (∀ i : Fin 16, m[i].toNat = if s.rev.getLsbD i.val then 2047 - s.ch[i].toNat else s.ch[i].toNat) ∧
    exec .schPub s = .next (respond .ok (if s.mbxDirty then 1#32 else 0#32) { s with mbx := m, mbxDirty := true })) ∧
  (∀ (rev : BitVec 16) (v : ChanVec), reverseVec rev (reverseVec rev v) = v) ∧ reverseChan true 1024#11 = 1023#11

/-- `SCH.START` (R120): from `STOPPED` to `WAIT` with the timer at `PERIOD − 1`; refused in every other state. -/
def Obligations.SchStartStartsLoop : Prop :=
  decode 0x41000000#32 = .command .schStart ∧ (∀ x : BitVec 24, x ≠ 0#24 → decode (0x41#8 ++ x) = .reserved) ∧
  (∀ s : State, s.sstate = .stopped → ∃ n : BitVec 20, n.toNat = 1000000 / s.rate.toNat - 1 ∧
    exec .schStart s = .next (respond .ok 0#32 { s with sstate := .wait, tmr := n })) ∧
  ∀ s : State, s.sstate ≠ .stopped → exec .schStart s = .next (respond .refused 0#32 s)

/-- `SCH.CANCEL` (R121): at once in `STOPPED` and `WAIT`, latched in `SEND`, nothing in the `EXIT` states. -/
def Obligations.SchCancelCancels : Prop :=
  decode 0x42000000#32 = .command .schCancel ∧ (∀ x : BitVec 24, x ≠ 0#24 → decode (0x42#8 ++ x) = .reserved) ∧
  (∀ s : State, s.sstate = .stopped ∨ s.sstate = .wait → exec .schCancel s = .next { s with
    sstate := .exitCancel, evt := s.evt ||| 0b01000#5, trace := s.trace ++ [.event .exitCancel, .response .ok 3#32] }) ∧
  (∀ s : State, s.sstate = .send → exec .schCancel s = .next (respond .ok 2#32 { s with cancelPend := true })) ∧
  (∀ s : State, s.sstate = .exitCancel → exec .schCancel s = .next (respond .ok 3#32 s)) ∧
  ∀ s : State, s.sstate = .exitFatal → exec .schCancel s = .next (respond .ok 4#32 s)

/-- `SCH.PCLOSE` (R122): at once in `STOPPED` and `WAIT`, latched in `SEND`, nothing in the `EXIT` states. -/
def Obligations.SchPcloseCloses : Prop :=
  decode 0x43000000#32 = .command .schPclose ∧ (∀ x : BitVec 24, x ≠ 0#24 → decode (0x43#8 ++ x) = .reserved) ∧
  (∀ s : State, s.sstate = .stopped ∨ s.sstate = .wait → exec .schPclose s = .next { s with
    sstate := .exitFatal, evt := s.evt ||| 0b10000#5, trace := s.trace ++ [.event .exitFatal, .response .ok 4#32] }) ∧
  (∀ s : State, s.sstate = .send → exec .schPclose s = .next (respond .ok 2#32 { s with fatalPend := true })) ∧
  (∀ s : State, s.sstate = .exitCancel → exec .schPclose s = .next (respond .ok 3#32 s)) ∧
  ∀ s : State, s.sstate = .exitFatal → exec .schPclose s = .next (respond .ok 4#32 s)

/-- The `TB` step (R113, with `tick` of R114 and `start_send` of R115): still in `STOPPED` and the `EXIT` states; counting
down; and at 0 reloading and ticking, which in `WAIT` takes the latest vector, builds its frame and requests it, and in
`SEND` is remembered in one bit. -/
def Obligations.TimebaseStep : Prop :=
  (∀ s : State, s.sstate = .stopped ∨ s.sstate = .exitCancel ∨ s.sstate = .exitFatal → runInput .tb s = .next s) ∧
  (∀ s : State, s.sstate = .wait ∨ s.sstate = .send → 0 < s.tmr.toNat →
    ∃ n : BitVec 20, n.toNat = s.tmr.toNat - 1 ∧ runInput .tb s = .next { s with tmr := n }) ∧
  (∀ s : State, s.sstate = .wait → s.tmr.toNat = 0 → ∃ (n : BitVec 20) (v : ChanVec) (m : Memory),
    n.toNat = 1000000 / s.rate.toNat - 1 ∧ v = (if s.mbxDirty then s.mbx else s.out) ∧ m.readBytes 0 26 = frame v ∧
    runInput .tb s = .next { s with
      tmr := n, out := v, mbxDirty := false, txbuf := m, sstate := .send, trace := s.trace ++ [.txReq (frame v)] }) ∧
  ∀ s : State, s.sstate = .send → s.tmr.toNat = 0 → ∃ n : BitVec 20, n.toNat = 1000000 / s.rate.toNat - 1 ∧
    runInput .tb s = .next { s with tmr := n, tickPend := true }

/-- The `TXR(ok)` step (R116): in `SEND` the counters and the status summary, then the wait point; elsewhere nothing. -/
def Obligations.TransmitSuccess : Prop :=
  (∀ s : State, s.sstate = .send → s.statIvl = 0#16 → runInput (.txr true) s =
    .next (waitPoint { s with failCnt := 0#16, totalSent := s.totalSent + 1#32, statCnt := 0#16 })) ∧
  (∀ s : State, s.sstate = .send → s.statIvl ≠ 0#16 → s.statIvl.toNat ≤ s.statCnt.toNat + 1 → runInput (.txr true) s =
    .next (waitPoint { s with
      failCnt := 0#16, totalSent := s.totalSent + 1#32, statCnt := 0#16, evt := s.evt ||| 0b00001#5,
      trace := s.trace ++ [.event .status] })) ∧
  (∀ s : State, s.sstate = .send → s.statIvl ≠ 0#16 → s.statCnt.toNat + 1 < s.statIvl.toNat → ∃ n : BitVec 16,
    n.toNat = s.statCnt.toNat + 1 ∧ runInput (.txr true) s =
      .next (waitPoint { s with failCnt := 0#16, totalSent := s.totalSent + 1#32, statCnt := n })) ∧
  (∀ s : State, s.sstate ≠ .send → runInput (.txr true) s = .next s) ∧
  ∀ n : BitVec 32, (n + 1#32).toNat = (n.toNat + 1) % 2 ^ 32

/-- The `TXR(fail)` step (R117): in `SEND` the saturating count, compared after the increment, then the wait point; elsewhere
nothing. -/
def Obligations.TransmitFailure : Prop :=
  (∀ s : State, s.sstate ≠ .send → runInput (.txr false) s = .next s) ∧
  ∀ s : State, s.sstate = .send → ∃ n : BitVec 16, n.toNat = min (s.failCnt.toNat + 1) 65535 ∧
    (s.failThr.toNat ≤ n.toNat → runInput (.txr false) s = .next (waitPoint { s with
      failCnt := n, evt := s.evt ||| 0b00100#5, trace := s.trace ++ [.event .failWarn] })) ∧
    (n.toNat < s.failThr.toNat → runInput (.txr false) s = .next (waitPoint { s with
      failCnt := n, evt := s.evt ||| 0b00010#5, trace := s.trace ++ [.event .failLow] }))

/-- The wait point (R118): fatal, then cancel, then a pending tick, which sends at once, else `WAIT`. -/
def Obligations.WaitPointPriority : Prop :=
  (∀ s : State, s.fatalPend = true → waitPoint s = { s with
    sstate := .exitFatal, tickPend := false, cancelPend := false, fatalPend := false,
    evt := s.evt ||| 0b10000#5, trace := s.trace ++ [.event .exitFatal] }) ∧
  (∀ s : State, s.fatalPend = false → s.cancelPend = true → waitPoint s = { s with
    sstate := .exitCancel, tickPend := false, cancelPend := false,
    evt := s.evt ||| 0b01000#5, trace := s.trace ++ [.event .exitCancel] }) ∧
  (∀ s : State, s.fatalPend = false → s.cancelPend = false → s.tickPend = true → ∃ (v : ChanVec) (m : Memory),
    v = (if s.mbxDirty then s.mbx else s.out) ∧ m.readBytes 0 26 = frame v ∧ waitPoint s = { s with
      tickPend := false, out := v, mbxDirty := false, txbuf := m, sstate := .send,
      trace := s.trace ++ [.txReq (frame v)] }) ∧
  ∀ s : State, s.fatalPend = false → s.cancelPend = false → s.tickPend = false →
    waitPoint s = { s with sstate := .wait }

/-- A transport result outside `SEND` changes nothing and emits nothing (R123). -/
def Obligations.StrayResultIgnored : Prop :=
  ∀ (s : State) (ok : Bool), s.sstate ≠ .send → runInput (.txr ok) s = .next s

/-- Every transition of `SSTATE`, from every state and for every input, is the one of the table in `44_scheduler.md` section 8
(which the spec marks as derived); a command word moves it only if it is `RESET`, `SCH.START`, `SCH.CANCEL` or
`SCH.PCLOSE`. -/
def Obligations.TransitionsFollowTable : Prop :=
  ∀ (s t : State) (inp : Input), runInput inp s = .next t → t.sstate = tableNext s inp

/-- A step emits at most one `TX_REQ`, only from the wait point's tick or from a result taken in `SEND`, ending in `SEND`;
its frame is that of the latest published vector, and of `OUT` and `TXBUF` after the step (`44_scheduler.md` section 8,
properties (a), (b) and (c), which the spec marks as derived). -/
def Obligations.TxReqCarriesLatestVector : Prop :=
  ∀ (s t : State) (inp : Input), runInput inp s = .next t → ∃ new, t.trace = s.trace ++ new ∧
    (new.filter isTxReq).length ≤ 1 ∧
    ∀ f, .txReq f ∈ new → t.sstate = .send ∧ t.out = latest s ∧ t.mbxDirty = false ∧ f = frame (latest s) ∧
      t.txbuf.readBytes 0 26 = f ∧ ((s.sstate = .wait ∧ inp = .tb) ∨ (s.sstate = .send ∧ ∃ ok, inp = .txr ok))

/-- What only the loop writes: the three counters change only in a result step taken in `SEND`, and `OUT` and `TXBUF` only in a
step that emits a `TX_REQ`, except by reset (`44_scheduler.md` section 8, property (g), which the spec marks as derived, and
section 9, "which stay stable until the next `tx_req`"). -/
def Obligations.CountersAndFrameOwnedByLoop : Prop :=
  (∀ (s t : State) (inp : Input), runInput inp s = .next t → (∀ ok, inp ≠ .txr ok) ∨ s.sstate ≠ .send →
    inp ≠ .hreset → inp ≠ .command 0x01000000#32 →
    t.failCnt = s.failCnt ∧ t.totalSent = s.totalSent ∧ t.statCnt = s.statCnt) ∧
  ∀ (s t : State) (inp : Input), runInput inp s = .next t → inp ≠ .hreset → inp ≠ .command 0x01000000#32 →
    (∀ f new, t.trace = s.trace ++ new → .txReq f ∉ new) → t.txbuf = s.txbuf ∧ t.out = s.out

/-- The range of `STAT_CNT` (`10_state.md` section 7, the row of `STAT_CNT` with conflict C11): below `STAT_IVL` after every
success, or 0 with the summary disabled; kept by every other step but a write of `STAT_IVL` (read from rules R22, R56,
R116 and R149 by inference). -/
def Obligations.StatusCountStaysBelowInterval : Prop :=
  (∀ s t : State, s.sstate = .send → runInput (.txr true) s = .next t →
    if s.statIvl = 0#16 then t.statCnt = 0#16 else t.statCnt.toNat < t.statIvl.toNat) ∧
  ∀ (s t : State) (inp : Input), runInput inp s = .next t →
    (∀ w : Word, inp = .command w → w.extractLsb' 16 16 ≠ 0x031C#16) →
    (s.statIvl ≠ 0#16 → s.statCnt.toNat < s.statIvl.toNat) → t.statIvl ≠ 0#16 → t.statCnt.toNat < t.statIvl.toNat

/-- The period (R112): `1000000 // RATE`, between 15 and 1000000, with the rates the rule names. -/
def Obligations.PeriodOfRate : Prop :=
  (∀ s : State, 1 ≤ s.rate.toNat → period s = 1000000 / s.rate.toNat ∧ 15 ≤ period s ∧ period s ≤ 1000000) ∧
  ∀ s : State, period { s with rate := 250#16 } = 4000 ∧ period { s with rate := 150#16 } = 6666 ∧
    period { s with rate := 1#16 } = 1000000 ∧ period { s with rate := 65535#16 } = 15

/-- An event is a pulse of its step and sets the bit of its name in `EVT`, where it stays until the host clears it (R119, with the
bits of R24): `EVT` gains exactly the bits of the events a step emits, and only `WR EVT` and reset take bits away. -/
def Obligations.EventsSetStickyBits : Prop :=
  (eventBit .status = 1#5 ∧ eventBit .failLow = 2#5 ∧ eventBit .failWarn = 4#5 ∧ eventBit .exitCancel = 8#5 ∧
    eventBit .exitFatal = 16#5) ∧
  ∀ (s t : State) (inp : Input), runInput inp s = .next t → inp ≠ .hreset → inp ≠ .command 0x01000000#32 →
    (∀ v : BitVec 16, inp ≠ .command (0x0337#16 ++ v)) →
    ∃ new, t.trace = s.trace ++ new ∧ t.evt = s.evt ||| eventsIn new

/-- The interrupt line (R133): high exactly when an enabled event is pending; low whenever `IEN` is 0. -/
def Obligations.IrqIsEnabledEvent : Prop :=
  (∀ s : State, irq s = true ↔ ∃ k, k < 5 ∧ s.evt.getLsbD k = true ∧ s.ien.getLsbD k = true) ∧
  ∀ s : State, s.ien = 0#5 → irq s = false

/-- The two activities meet only where R38 says: a `TB` or `TXR` step reads nothing the CRC, codec and shaper units own and
writes none of it; a CRC, codec or shaper command writes nothing the scheduler reads or writes (`20_memory.md` section 6,
which the spec marks as derived). -/
def Obligations.DatapathAndSchedulerDoNotInterfere : Prop :=
  (∀ (s s' t t' : State) (inp : Input), (inp = .tb ∨ ∃ ok, inp = .txr ok) → SameForScheduler s s' →
    runInput inp s = .next t → runInput inp s' = .next t' → SameForScheduler t t' ∧ SameForDatapath s t ∧
      ∃ new, t.trace = s.trace ++ new ∧ t'.trace = s'.trace ++ new) ∧
  ∀ (s t : State) (i : Instr), isDatapath i = true → exec i s = .next t → SameForScheduler s t

/-! ## The model's own memory form -/

/-- Two byte buffers in canonical form that read alike at every index are the same list (the canonical form is the model's
choice, log entry 5). -/
def Obligations.CanonicalBuffersReadingAlikeAreEqual : Prop :=
  ∀ m m' : Memory, m.wf = true → m'.wf = true → (∀ k, m.read k = m'.read k) → m = m'
end

