-- ==== Sys2Proof/Laws/Memory.lean ====
section
/-! SUPPORT. The laws of the byte memory: reading after writing, and the canonical form kept by every operation. -/

namespace Sys2Proof.Machine

/-- A list that rises from a higher bound rises from a lower one. -/
theorem Memory.risesFrom_mono {lo lo' : Nat} {m : Memory} (h : Memory.risesFrom lo m = true) (hle : lo' ≤ lo) :
    Memory.risesFrom lo' m = true := by
  cases m with
  | nil => rfl
  | cons cell m =>
    simp only [Memory.risesFrom, Bool.and_eq_true, decide_eq_true_eq] at h ⊢
    exact ⟨⟨by omega, h.1.2⟩, h.2⟩

/-- An index below every listed one reads as unlisted. -/
theorem Memory.read_of_risesFrom {lo a : Nat} {m : Memory} (h : Memory.risesFrom lo m = true) (ha : a < lo) :
    m.read a = Memory.unlisted := by
  induction m generalizing lo with
  | nil => rfl
  | cons cell m ih =>
    simp only [Memory.risesFrom, Bool.and_eq_true, decide_eq_true_eq] at h
    rw [Memory.read, if_neg (by omega)]
    exact ih h.2 (by omega)

/-- One byte written into a rising list leaves a rising list. -/
theorem Memory.risesFrom_write {lo a : Nat} {b : Byte} {m : Memory} (h : Memory.risesFrom lo m = true) (ha : lo ≤ a) :
    Memory.risesFrom lo (m.write a b) = true := by
  induction m generalizing lo with
  | nil => by_cases hb : b = Memory.unlisted <;> simp [Memory.write, Memory.risesFrom, hb, ha]
  | cons cell m ih =>
    obtain ⟨k, v⟩ := cell
    simp only [Memory.risesFrom, Bool.and_eq_true, decide_eq_true_eq] at h
    obtain ⟨⟨hk, hv⟩, hm⟩ := h
    rw [Memory.write]
    split
    · split
      · simp [Memory.risesFrom, *]
      · simp [Memory.risesFrom, *]
    · split
      · split
        · exact Memory.risesFrom_mono hm (by omega)
        · subst_vars
          simp [Memory.risesFrom, *]
      · simp only [Memory.risesFrom, Bool.and_eq_true, decide_eq_true_eq]
        exact ⟨⟨hk, hv⟩, ih hm (by omega)⟩

/-- Reading after one write into a rising list. -/
theorem Memory.read_write_of_risesFrom {lo a c : Nat} {b : Byte} {m : Memory} (h : Memory.risesFrom lo m = true) :
    (m.write a b).read c = if c = a then b else m.read c := by
  induction m generalizing lo with
  | nil =>
    by_cases hb : b = Memory.unlisted <;> by_cases hc : a = c <;>
      simp [Memory.write, Memory.read, hb, hc, eq_comm]
  | cons cell m ih =>
    obtain ⟨k, v⟩ := cell
    simp only [Memory.risesFrom, Bool.and_eq_true, decide_eq_true_eq] at h
    obtain ⟨⟨hk, hv⟩, hm⟩ := h
    have below : ∀ x, x < k + 1 → Memory.read m x = Memory.unlisted := fun x hx => Memory.read_of_risesFrom hm hx
    rw [Memory.write]
    split
    · split
      · rename_i hak hb
        by_cases hc : c = a
        · subst hc; rw [if_pos rfl, Memory.read, if_neg (by omega), below c (by omega), hb]
        · rw [if_neg hc]
      · rename_i hak hb
        by_cases hc : c = a
        · subst hc; simp [Memory.read]
        · rw [if_neg hc, Memory.read, if_neg (fun e => hc e.symm)]
    · split
      · rename_i hak he
        subst he
        split
        · rename_i hb
          by_cases hc : c = a
          · subst hc; rw [if_pos rfl, below c (by omega), hb]
          · rw [if_neg hc, Memory.read, if_neg (fun e => hc e.symm)]
        · by_cases hc : c = a
          · subst hc; simp [Memory.read]
          · rw [if_neg hc, Memory.read, Memory.read, if_neg (fun e => hc e.symm), if_neg (fun e => hc e.symm)]
      · rename_i hak he
        rw [Memory.read, Memory.read, ih hm]
        by_cases hc : k = c
        · rw [if_pos hc, if_neg (by omega), if_pos hc]
        · rw [if_neg hc, if_neg hc]

/-- Every write keeps the canonical form. -/
theorem Memory.wf_write {m : Memory} (h : m.wf = true) (a : Nat) (b : Byte) : (m.write a b).wf = true :=
  Memory.risesFrom_write h (Nat.zero_le a)

/-- Reading after a write: the byte written at its index, the byte that was there elsewhere. -/
theorem Memory.read_write {m : Memory} (h : m.wf = true) (a c : Nat) (b : Byte) :
    (m.write a b).read c = if c = a then b else m.read c :=
  Memory.read_write_of_risesFrom h

/-- Every list of bytes written keeps the canonical form. -/
theorem Memory.wf_writeBytes {m : Memory} (h : m.wf = true) (a : Nat) (bs : List Byte) :
    (m.writeBytes a bs).wf = true := by
  induction bs generalizing m a with
  | nil => exact h
  | cons b bs ih => exact ih (Memory.wf_write h a b) (a + 1)

/-- Reading after a list of bytes is written. -/
theorem Memory.read_writeBytes {m : Memory} (h : m.wf = true) (a c : Nat) (bs : List Byte) :
    (m.writeBytes a bs).read c =
      if a ≤ c ∧ c < a + bs.length then bs.getD (c - a) Memory.unlisted else m.read c := by
  induction bs generalizing m a with
  | nil => rw [Memory.writeBytes, if_neg (by simp)]
  | cons b bs ih =>
    rw [Memory.writeBytes, ih (Memory.wf_write h a b), Memory.read_write h, List.length_cons]
    by_cases hc : c = a
    · subst hc
      rw [if_neg (by omega), if_pos rfl, if_pos (by omega), Nat.sub_self]; rfl
    · rw [if_neg hc]
      by_cases hlt : a + 1 ≤ c ∧ c < a + 1 + bs.length
      · rw [if_pos hlt, if_pos (by omega)]
        obtain ⟨n, rfl⟩ : ∃ n, c = a + 1 + n := ⟨c - (a + 1), by omega⟩
        rw [show a + 1 + n - a = n + 1 by omega, show a + 1 + n - (a + 1) = n by omega]; rfl
      · rw [if_neg hlt, if_neg (by omega)]

/-- A buffer rewritten whole has the canonical form. -/
theorem Memory.wf_ofBytes (bs : List Byte) : (Memory.ofBytes bs).wf = true := Memory.wf_writeBytes rfl 0 bs

/-- Reading a buffer rewritten whole: the byte at that place of the list. -/
theorem Memory.read_ofBytes (bs : List Byte) (c : Nat) :
    (Memory.ofBytes bs).read c = bs.getD c Memory.unlisted := by
  rw [Memory.ofBytes, Memory.read_writeBytes rfl]
  split
  · rfl
  · rw [List.getD_eq_default _ _ (by omega)]; rfl

/-- A buffer rewritten whole reads back as the list written. -/
theorem Memory.readBytes_ofBytes (bs : List Byte) : (Memory.ofBytes bs).readBytes 0 bs.length = bs := by
  apply List.ext_getElem (by simp [Memory.readBytes])
  intro k h1 h2
  simp [Memory.readBytes, Memory.read_ofBytes, h2]

/-- The bytes read are as many as asked for. -/
@[simp] theorem Memory.length_readBytes (m : Memory) (a n : Nat) : (m.readBytes a n).length = n := by
  simp [Memory.readBytes]

/-- The byte at a place of the bytes read. -/
theorem Memory.getD_readBytes (m : Memory) (a n k : Nat) (d : Byte) (h : k < n) :
    (m.readBytes a n).getD k d = m.read (a + k) := by
  simp [Memory.readBytes, h]

/-- A write inside a buffer keeps every listed index inside it. -/
theorem Memory.within_write {m : Memory} {size a : Nat} (h : m.within size = true) (ha : a < size) (b : Byte) :
    (m.write a b).within size = true := by
  induction m with
  | nil => by_cases hb : b = Memory.unlisted <;> simp [Memory.write, Memory.within, hb, ha]
  | cons cell m ih =>
    obtain ⟨k, v⟩ := cell
    simp only [Memory.within, List.all_cons, Bool.and_eq_true, decide_eq_true_eq] at h ih ⊢
    rw [Memory.write]
    split
    · split <;> simp [h.1, h.2, ha]
    · split
      · split
        · exact h.2
        · simp [h.2, ha]
      · simp only [List.all_cons, Bool.and_eq_true, decide_eq_true_eq]
        exact ⟨h.1, ih h.2⟩

/-- A list of bytes written inside a buffer keeps every listed index inside it. -/
theorem Memory.within_writeBytes {m : Memory} {size a : Nat} (bs : List Byte) (h : m.within size = true)
    (ha : a + bs.length ≤ size) : (m.writeBytes a bs).within size = true := by
  induction bs generalizing m a with
  | nil => exact h
  | cons b bs ih =>
    rw [List.length_cons] at ha
    exact ih (Memory.within_write h (by omega) b) (by omega)

/-- A buffer rewritten whole with bytes that fit it lists only indices inside it. -/
theorem Memory.within_ofBytes {size : Nat} {bs : List Byte} (h : bs.length ≤ size) :
    (Memory.ofBytes bs).within size = true :=
  Memory.within_writeBytes bs rfl (by omega)

end Sys2Proof.Machine
end

