-- ==== Sys2Proof/Laws/Codec.lean ====
section
/-! SUPPORT. Small laws of the CRC and of the codec's functions: lengths, places of bytes in a frame, bits of the stream. -/

namespace Sys2Proof.Machine

/-! ### CRC -/

/-- The CRC of no bytes is 0 (R63). -/
@[simp] theorem crc8_nil : crc8 [] = 0x00#8 := rfl

/-- The CRC of a list with one more byte: one more table step (R63). -/
theorem crc8_concat (bs : List Byte) (b : Byte) : crc8 (bs ++ [b]) = crcStepTable (crc8 bs) b := by
  simp [crc8, List.foldl_append]

/-- The CRC of two lists one after the other: the second list's steps from the first one's CRC. -/
theorem crc8_append (as bs : List Byte) : crc8 (as ++ bs) = bs.foldl crcStepTable (crc8 as) := by
  simp [crc8, List.foldl_append]

/-- `CRCTAB[0] = 0` (R61). -/
@[simp] theorem crcTab_zero : crcTab 0#8 = 0#8 := by decide

/-- A byte equal to the running CRC brings it to 0 (R65). -/
@[simp] theorem crcStepTable_self (c : Byte) : crcStepTable c c = 0#8 := by simp [crcStepTable]

/-! ### Streams of fields -/

/-- The bits of fields of one width laid end to end. -/
theorem testBit_stream (w n m : Nat) (f : Nat → Nat) (hw : 0 < w) (hf : ∀ k, f k < 2 ^ w) :
    ((List.range n).foldl (fun stream k => stream ||| (f k <<< (w * k))) 0).testBit m =
      (decide (m / w < n) && (f (m / w)).testBit (m % w)) := by
  induction n with
  | zero => simp
  | succ n ih =>
    rw [List.range_succ, List.foldl_append, List.foldl_cons, List.foldl_nil, Nat.testBit_or, ih, Nat.testBit_shiftLeft]
    have hdm := Nat.div_add_mod m w
    have hml := Nat.mod_lt m hw
    rcases lt_trichotomy (m / w) n with h | h | h
    · have : m < w * n := by
        calc m = w * (m / w) + m % w := hdm.symm
          _ < w * (m / w) + w := by omega
          _ = w * (m / w + 1) := by ring
          _ ≤ w * n := Nat.mul_le_mul_left w h
      simp [h, Nat.lt_succ_of_lt h, Nat.not_le.mpr this]
    · have hle : w * n ≤ m := by rw [← h]; exact Nat.mul_div_le m w
      have hsub : m - w * n = m % w := by rw [← h]; omega
      simp [h, hle, hsub]
    · have hle : w * (n + 1) ≤ m := le_trans (Nat.mul_le_mul_left w h) (Nat.mul_div_le m w)
      have hz : (f n).testBit (m - w * n) = false := by
        apply Nat.testBit_lt_two_pow
        refine lt_of_lt_of_le (hf n) (Nat.pow_le_pow_right (by norm_num) ?_)
        rw [Nat.mul_add, Nat.mul_one] at hle
        omega
      simp [Nat.not_lt.mpr (Nat.le_of_lt h), Nat.not_lt.mpr h, hz]

/-- The stream of a channel vector, its channels taken by number. -/
theorem packStream_eq_range (v : ChanVec) :
    packStream v =
      (List.range 16).foldl (fun stream k => stream ||| ((v[k]?.getD 0#11).toNat <<< (11 * k))) 0 := rfl

/-- The bits of the stream of a channel vector: bit `11i + j` is bit `j` of channel `i` (R72). -/
theorem testBit_packStream (v : ChanVec) (m : Nat) :
    (packStream v).testBit m = (v[m / 11]?.getD 0#11).getLsbD (m % 11) := by
  rw [packStream_eq_range, testBit_stream 11 16 m (fun k => (v[k]?.getD 0#11).toNat) (by norm_num)
    (fun k => (v[k]?.getD 0#11).isLt)]
  by_cases h : m / 11 < 16
  · simp [h, BitVec.testBit_toNat]
  · simp [h]

/-- The bits of the stream of a payload: bit `8k + j` is bit `j` of byte `k`, of the first 22 bytes only (R73). -/
theorem testBit_unpackStream (p : List Byte) (m : Nat) :
    (unpackStream p).testBit m = (decide (m / 8 < 22) && (p.getD (m / 8) 0x00#8).getLsbD (m % 8)) := by
  unfold unpackStream
  rw [testBit_stream 8 22 m (fun k => (p.getD k 0x00#8).toNat) (by norm_num) (fun k => (p.getD k 0x00#8).isLt)]
  rw [BitVec.testBit_toNat]

/-! ### Lengths and places -/

/-- The packed payload has 22 bytes (R72). -/
@[simp] theorem length_pack (v : ChanVec) : (pack v).length = 22 := by simp [pack]

/-- The covered part of the frame has 24 bytes (R74). -/
@[simp] theorem length_frameBody (v : ChanVec) : (frameBody v).length = 24 := by simp [frameBody]

/-- The frame has 26 bytes (R71). -/
@[simp] theorem length_frame (v : ChanVec) : (frame v).length = 26 := by simp [frame]

/-- A byte of the packed payload by its number (R72). -/
theorem getD_pack (v : ChanVec) {k : Nat} (h : k < 22) :
    (pack v).getD k 0x00#8 = BitVec.ofNat 8 (packStream v >>> (8 * k)) := by
  simp [pack, h]

/-- A failed frame check reports no type and no payload length (R75). -/
@[simp] theorem failed_err (e : DecErr) : (DecodeResult.failed e).err = e := rfl
@[simp] theorem failed_type (e : DecErr) : (DecodeResult.failed e).type = 0x00#8 := rfl
@[simp] theorem failed_plen (e : DecErr) : (DecodeResult.failed e).plen = 0 := rfl

/-- Everything the frame check can find (R75). -/
theorem decodeFrame_cases (buf : List Byte) :
    (buf.length < 4 ∧ decodeFrame buf = .failed .short) ∨
    (4 ≤ buf.length ∧ buf.getD 0 0x00#8 ≠ 0xC8#8 ∧ decodeFrame buf = .failed .sync) ∨
    (4 ≤ buf.length ∧ buf.getD 0 0x00#8 = 0xC8#8 ∧
      ((buf.getD 1 0x00#8).toNat < 2 ∨ 62 < (buf.getD 1 0x00#8).toNat) ∧ decodeFrame buf = .failed .len) ∨
    (4 ≤ buf.length ∧ buf.getD 0 0x00#8 = 0xC8#8 ∧ 2 ≤ (buf.getD 1 0x00#8).toNat ∧
      (buf.getD 1 0x00#8).toNat ≤ 62 ∧ buf.length < 2 + (buf.getD 1 0x00#8).toNat ∧
      decodeFrame buf = .failed .trunc) ∨
    (4 ≤ buf.length ∧ buf.getD 0 0x00#8 = 0xC8#8 ∧ 2 ≤ (buf.getD 1 0x00#8).toNat ∧
      (buf.getD 1 0x00#8).toNat ≤ 62 ∧ 2 + (buf.getD 1 0x00#8).toNat ≤ buf.length ∧
      crc8 ((buf.drop 1).take (buf.getD 1 0x00#8).toNat) ≠ buf.getD (1 + (buf.getD 1 0x00#8).toNat) 0x00#8 ∧
      decodeFrame buf = .failed .crc) ∨
    (4 ≤ buf.length ∧ buf.getD 0 0x00#8 = 0xC8#8 ∧ 2 ≤ (buf.getD 1 0x00#8).toNat ∧
      (buf.getD 1 0x00#8).toNat ≤ 62 ∧ 2 + (buf.getD 1 0x00#8).toNat ≤ buf.length ∧
      crc8 ((buf.drop 1).take (buf.getD 1 0x00#8).toNat) = buf.getD (1 + (buf.getD 1 0x00#8).toNat) 0x00#8 ∧
      decodeFrame buf = ⟨.ok, buf.getD 2 0x00#8, (buf.getD 1 0x00#8).toNat - 2⟩) := by
  unfold decodeFrame
  by_cases h1 : buf.length < 4
  · exact .inl ⟨h1, if_pos h1⟩
  have h1' := Nat.not_lt.mp h1
  rw [if_neg h1]
  by_cases h2 : buf.getD 0 0x00#8 ≠ Config.sync
  · exact .inr (.inl ⟨h1', h2, if_pos h2⟩)
  rw [if_neg h2]
  have h2' := not_not.mp h2
  by_cases h3 : (buf.getD 1 0x00#8).toNat < Config.lenMin ∨ Config.lenMax < (buf.getD 1 0x00#8).toNat
  · exact .inr (.inr (.inl ⟨h1', h2', h3, if_pos h3⟩))
  obtain ⟨h3a, h3b⟩ := not_or.mp h3
  have h3a' := Nat.not_lt.mp h3a
  have h3b' := Nat.not_lt.mp h3b
  by_cases h4 : buf.length < 2 + (buf.getD 1 0x00#8).toNat
  · exact .inr (.inr (.inr (.inl ⟨h1', h2', h3a', h3b', h4, by simp only [if_neg h3, if_pos h4]⟩)))
  by_cases h5 : crc8 ((buf.drop 1).take (buf.getD 1 0x00#8).toNat) ≠ buf.getD (1 + (buf.getD 1 0x00#8).toNat) 0x00#8
  · exact .inr (.inr (.inr (.inr (.inl ⟨h1', h2', h3a', h3b', Nat.not_lt.mp h4, h5,
      by simp only [if_neg h3, if_neg h4, if_pos h5]⟩))))
  · exact .inr (.inr (.inr (.inr (.inr ⟨h1', h2', h3a', h3b', Nat.not_lt.mp h4, not_not.mp h5,
      by simp only [if_neg h3, if_neg h4, if_neg h5]⟩))))

end Sys2Proof.Machine
end

