-- ==== Sys2Proof/Laws/Codes.lean ====
section
/-! SUPPORT. The codes the machine gives are the numbers the spec's tables print, said once per enumerated register. -/

namespace Sys2Proof.Machine

/-- The code of a frame check's finding is the number R75 gives it. -/
@[simp] theorem derrCode_toNat (e : DecErr) : (derrCode e).toNat = Safety.derrNumber e := by
  cases e <;> rfl

/-- The code of a scheduler state is the number R110 gives it. -/
@[simp] theorem sstateCode_toNat (st : SState) : (sstateCode st).toNat = Safety.sstateNumber st := by
  cases st <;> rfl

/-- The code of a finding as answered by `DEC` and by a read of `DERR`. -/
theorem derrCode_setWidth (e : DecErr) : (derrCode e).setWidth 32 = BitVec.ofNat 32 (Safety.derrNumber e) := by
  cases e <;> rfl

/-- The code of a scheduler state as answered by a read of `SSTATE`. -/
theorem sstateCode_setWidth (st : SState) :
    (sstateCode st).setWidth 32 = BitVec.ofNat 32 (Safety.sstateNumber st) := by
  cases st <;> rfl

end Sys2Proof.Machine
end

