-- ==== Sys2Proof/Laws/State.lean ====
section
/-! SUPPORT. One lemma for each field under each named update of the state, so that no later proof unfolds a record update. -/

namespace Sys2Proof.Machine

/-! ### Fields after `respond` -/

@[simp] theorem respond_ch (st : Status) (d : Word) (s : State) : (respond st d s).ch = s.ch := rfl
@[simp] theorem respond_uch (st : Status) (d : Word) (s : State) : (respond st d s).uch = s.uch := rfl
@[simp] theorem respond_mbx (st : Status) (d : Word) (s : State) : (respond st d s).mbx = s.mbx := rfl
@[simp] theorem respond_out (st : Status) (d : Word) (s : State) : (respond st d s).out = s.out := rfl
@[simp] theorem respond_ebuf (st : Status) (d : Word) (s : State) : (respond st d s).ebuf = s.ebuf := rfl
@[simp] theorem respond_txbuf (st : Status) (d : Word) (s : State) : (respond st d s).txbuf = s.txbuf := rfl
@[simp] theorem respond_rxbuf (st : Status) (d : Word) (s : State) : (respond st d s).rxbuf = s.rxbuf := rfl
@[simp] theorem respond_dz (st : Status) (d : Word) (s : State) : (respond st d s).dz = s.dz := rfl
@[simp] theorem respond_expo (st : Status) (d : Word) (s : State) : (respond st d s).expo = s.expo := rfl
@[simp] theorem respond_tdz (st : Status) (d : Word) (s : State) : (respond st d s).tdz = s.tdz := rfl
@[simp] theorem respond_rev (st : Status) (d : Word) (s : State) : (respond st d s).rev = s.rev := rfl
@[simp] theorem respond_rate (st : Status) (d : Word) (s : State) : (respond st d s).rate = s.rate := rfl
@[simp] theorem respond_failThr (st : Status) (d : Word) (s : State) : (respond st d s).failThr = s.failThr := rfl
@[simp] theorem respond_statIvl (st : Status) (d : Word) (s : State) : (respond st d s).statIvl = s.statIvl := rfl
@[simp] theorem respond_ien (st : Status) (d : Word) (s : State) : (respond st d s).ien = s.ien := rfl
@[simp] theorem respond_crc (st : Status) (d : Word) (s : State) : (respond st d s).crc = s.crc := rfl
@[simp] theorem respond_shpY (st : Status) (d : Word) (s : State) : (respond st d s).shpY = s.shpY := rfl
@[simp] theorem respond_rxlen (st : Status) (d : Word) (s : State) : (respond st d s).rxlen = s.rxlen := rfl
@[simp] theorem respond_evalid (st : Status) (d : Word) (s : State) : (respond st d s).evalid = s.evalid := rfl
@[simp] theorem respond_dvalid (st : Status) (d : Word) (s : State) : (respond st d s).dvalid = s.dvalid := rfl
@[simp] theorem respond_rxovf (st : Status) (d : Word) (s : State) : (respond st d s).rxovf = s.rxovf := rfl
@[simp] theorem respond_derr (st : Status) (d : Word) (s : State) : (respond st d s).derr = s.derr := rfl
@[simp] theorem respond_rtype (st : Status) (d : Word) (s : State) : (respond st d s).rtype = s.rtype := rfl
@[simp] theorem respond_rplen (st : Status) (d : Word) (s : State) : (respond st d s).rplen = s.rplen := rfl
@[simp] theorem respond_sstate (st : Status) (d : Word) (s : State) : (respond st d s).sstate = s.sstate := rfl
@[simp] theorem respond_mbxDirty (st : Status) (d : Word) (s : State) : (respond st d s).mbxDirty = s.mbxDirty := rfl
@[simp] theorem respond_tickPend (st : Status) (d : Word) (s : State) : (respond st d s).tickPend = s.tickPend := rfl
@[simp] theorem respond_cancelPend (st : Status) (d : Word) (s : State) : (respond st d s).cancelPend = s.cancelPend := rfl
@[simp] theorem respond_fatalPend (st : Status) (d : Word) (s : State) : (respond st d s).fatalPend = s.fatalPend := rfl
@[simp] theorem respond_failCnt (st : Status) (d : Word) (s : State) : (respond st d s).failCnt = s.failCnt := rfl
@[simp] theorem respond_totalSent (st : Status) (d : Word) (s : State) : (respond st d s).totalSent = s.totalSent := rfl
@[simp] theorem respond_statCnt (st : Status) (d : Word) (s : State) : (respond st d s).statCnt = s.statCnt := rfl
@[simp] theorem respond_tmr (st : Status) (d : Word) (s : State) : (respond st d s).tmr = s.tmr := rfl
@[simp] theorem respond_evt (st : Status) (d : Word) (s : State) : (respond st d s).evt = s.evt := rfl
@[simp] theorem respond_inputs (st : Status) (d : Word) (s : State) : (respond st d s).inputs = s.inputs := rfl
@[simp] theorem respond_trace (st : Status) (d : Word) (s : State) : (respond st d s).trace = s.trace ++ [.response st d] := rfl

/-! ### Fields after `emit` -/

@[simp] theorem emit_ch (e : Event) (s : State) : (emit e s).ch = s.ch := rfl
@[simp] theorem emit_uch (e : Event) (s : State) : (emit e s).uch = s.uch := rfl
@[simp] theorem emit_mbx (e : Event) (s : State) : (emit e s).mbx = s.mbx := rfl
@[simp] theorem emit_out (e : Event) (s : State) : (emit e s).out = s.out := rfl
@[simp] theorem emit_ebuf (e : Event) (s : State) : (emit e s).ebuf = s.ebuf := rfl
@[simp] theorem emit_txbuf (e : Event) (s : State) : (emit e s).txbuf = s.txbuf := rfl
@[simp] theorem emit_rxbuf (e : Event) (s : State) : (emit e s).rxbuf = s.rxbuf := rfl
@[simp] theorem emit_dz (e : Event) (s : State) : (emit e s).dz = s.dz := rfl
@[simp] theorem emit_expo (e : Event) (s : State) : (emit e s).expo = s.expo := rfl
@[simp] theorem emit_tdz (e : Event) (s : State) : (emit e s).tdz = s.tdz := rfl
@[simp] theorem emit_rev (e : Event) (s : State) : (emit e s).rev = s.rev := rfl
@[simp] theorem emit_rate (e : Event) (s : State) : (emit e s).rate = s.rate := rfl
@[simp] theorem emit_failThr (e : Event) (s : State) : (emit e s).failThr = s.failThr := rfl
@[simp] theorem emit_statIvl (e : Event) (s : State) : (emit e s).statIvl = s.statIvl := rfl
@[simp] theorem emit_ien (e : Event) (s : State) : (emit e s).ien = s.ien := rfl
@[simp] theorem emit_crc (e : Event) (s : State) : (emit e s).crc = s.crc := rfl
@[simp] theorem emit_shpY (e : Event) (s : State) : (emit e s).shpY = s.shpY := rfl
@[simp] theorem emit_rxlen (e : Event) (s : State) : (emit e s).rxlen = s.rxlen := rfl
@[simp] theorem emit_evalid (e : Event) (s : State) : (emit e s).evalid = s.evalid := rfl
@[simp] theorem emit_dvalid (e : Event) (s : State) : (emit e s).dvalid = s.dvalid := rfl
@[simp] theorem emit_rxovf (e : Event) (s : State) : (emit e s).rxovf = s.rxovf := rfl
@[simp] theorem emit_derr (e : Event) (s : State) : (emit e s).derr = s.derr := rfl
@[simp] theorem emit_rtype (e : Event) (s : State) : (emit e s).rtype = s.rtype := rfl
@[simp] theorem emit_rplen (e : Event) (s : State) : (emit e s).rplen = s.rplen := rfl
@[simp] theorem emit_sstate (e : Event) (s : State) : (emit e s).sstate = s.sstate := rfl
@[simp] theorem emit_mbxDirty (e : Event) (s : State) : (emit e s).mbxDirty = s.mbxDirty := rfl
@[simp] theorem emit_tickPend (e : Event) (s : State) : (emit e s).tickPend = s.tickPend := rfl
@[simp] theorem emit_cancelPend (e : Event) (s : State) : (emit e s).cancelPend = s.cancelPend := rfl
@[simp] theorem emit_fatalPend (e : Event) (s : State) : (emit e s).fatalPend = s.fatalPend := rfl
@[simp] theorem emit_failCnt (e : Event) (s : State) : (emit e s).failCnt = s.failCnt := rfl
@[simp] theorem emit_totalSent (e : Event) (s : State) : (emit e s).totalSent = s.totalSent := rfl
@[simp] theorem emit_statCnt (e : Event) (s : State) : (emit e s).statCnt = s.statCnt := rfl
@[simp] theorem emit_tmr (e : Event) (s : State) : (emit e s).tmr = s.tmr := rfl
@[simp] theorem emit_evt (e : Event) (s : State) : (emit e s).evt = s.evt ||| eventBit e := rfl
@[simp] theorem emit_inputs (e : Event) (s : State) : (emit e s).inputs = s.inputs := rfl
@[simp] theorem emit_trace (e : Event) (s : State) : (emit e s).trace = s.trace ++ [.event e] := rfl

/-! ### Fields after `setCh` -/

@[simp] theorem setCh_ch (c : Fin 16) (v : Chan) (s : State) : (setCh c v s).ch = s.ch.set c v := rfl
@[simp] theorem setCh_uch (c : Fin 16) (v : Chan) (s : State) : (setCh c v s).uch = s.uch := rfl
@[simp] theorem setCh_mbx (c : Fin 16) (v : Chan) (s : State) : (setCh c v s).mbx = s.mbx := rfl
@[simp] theorem setCh_out (c : Fin 16) (v : Chan) (s : State) : (setCh c v s).out = s.out := rfl
@[simp] theorem setCh_ebuf (c : Fin 16) (v : Chan) (s : State) : (setCh c v s).ebuf = s.ebuf := rfl
@[simp] theorem setCh_txbuf (c : Fin 16) (v : Chan) (s : State) : (setCh c v s).txbuf = s.txbuf := rfl
@[simp] theorem setCh_rxbuf (c : Fin 16) (v : Chan) (s : State) : (setCh c v s).rxbuf = s.rxbuf := rfl
@[simp] theorem setCh_dz (c : Fin 16) (v : Chan) (s : State) : (setCh c v s).dz = s.dz := rfl
@[simp] theorem setCh_expo (c : Fin 16) (v : Chan) (s : State) : (setCh c v s).expo = s.expo := rfl
@[simp] theorem setCh_tdz (c : Fin 16) (v : Chan) (s : State) : (setCh c v s).tdz = s.tdz := rfl
@[simp] theorem setCh_rev (c : Fin 16) (v : Chan) (s : State) : (setCh c v s).rev = s.rev := rfl
@[simp] theorem setCh_rate (c : Fin 16) (v : Chan) (s : State) : (setCh c v s).rate = s.rate := rfl
@[simp] theorem setCh_failThr (c : Fin 16) (v : Chan) (s : State) : (setCh c v s).failThr = s.failThr := rfl
@[simp] theorem setCh_statIvl (c : Fin 16) (v : Chan) (s : State) : (setCh c v s).statIvl = s.statIvl := rfl
@[simp] theorem setCh_ien (c : Fin 16) (v : Chan) (s : State) : (setCh c v s).ien = s.ien := rfl
@[simp] theorem setCh_crc (c : Fin 16) (v : Chan) (s : State) : (setCh c v s).crc = s.crc := rfl
@[simp] theorem setCh_shpY (c : Fin 16) (v : Chan) (s : State) : (setCh c v s).shpY = s.shpY := rfl
@[simp] theorem setCh_rxlen (c : Fin 16) (v : Chan) (s : State) : (setCh c v s).rxlen = s.rxlen := rfl
@[simp] theorem setCh_evalid (c : Fin 16) (v : Chan) (s : State) : (setCh c v s).evalid = s.evalid := rfl
@[simp] theorem setCh_dvalid (c : Fin 16) (v : Chan) (s : State) : (setCh c v s).dvalid = s.dvalid := rfl
@[simp] theorem setCh_rxovf (c : Fin 16) (v : Chan) (s : State) : (setCh c v s).rxovf = s.rxovf := rfl
@[simp] theorem setCh_derr (c : Fin 16) (v : Chan) (s : State) : (setCh c v s).derr = s.derr := rfl
@[simp] theorem setCh_rtype (c : Fin 16) (v : Chan) (s : State) : (setCh c v s).rtype = s.rtype := rfl
@[simp] theorem setCh_rplen (c : Fin 16) (v : Chan) (s : State) : (setCh c v s).rplen = s.rplen := rfl
@[simp] theorem setCh_sstate (c : Fin 16) (v : Chan) (s : State) : (setCh c v s).sstate = s.sstate := rfl
@[simp] theorem setCh_mbxDirty (c : Fin 16) (v : Chan) (s : State) : (setCh c v s).mbxDirty = s.mbxDirty := rfl
@[simp] theorem setCh_tickPend (c : Fin 16) (v : Chan) (s : State) : (setCh c v s).tickPend = s.tickPend := rfl
@[simp] theorem setCh_cancelPend (c : Fin 16) (v : Chan) (s : State) : (setCh c v s).cancelPend = s.cancelPend := rfl
@[simp] theorem setCh_fatalPend (c : Fin 16) (v : Chan) (s : State) : (setCh c v s).fatalPend = s.fatalPend := rfl
@[simp] theorem setCh_failCnt (c : Fin 16) (v : Chan) (s : State) : (setCh c v s).failCnt = s.failCnt := rfl
@[simp] theorem setCh_totalSent (c : Fin 16) (v : Chan) (s : State) : (setCh c v s).totalSent = s.totalSent := rfl
@[simp] theorem setCh_statCnt (c : Fin 16) (v : Chan) (s : State) : (setCh c v s).statCnt = s.statCnt := rfl
@[simp] theorem setCh_tmr (c : Fin 16) (v : Chan) (s : State) : (setCh c v s).tmr = s.tmr := rfl
@[simp] theorem setCh_evt (c : Fin 16) (v : Chan) (s : State) : (setCh c v s).evt = s.evt := rfl
@[simp] theorem setCh_inputs (c : Fin 16) (v : Chan) (s : State) : (setCh c v s).inputs = s.inputs := rfl
@[simp] theorem setCh_trace (c : Fin 16) (v : Chan) (s : State) : (setCh c v s).trace = s.trace := rfl

/-! ### Fields after `recordDecode` -/

@[simp] theorem recordDecode_ch (d : DecodeResult) (s : State) : (recordDecode d s).ch = s.ch := rfl
@[simp] theorem recordDecode_uch (d : DecodeResult) (s : State) : (recordDecode d s).uch = s.uch := rfl
@[simp] theorem recordDecode_mbx (d : DecodeResult) (s : State) : (recordDecode d s).mbx = s.mbx := rfl
@[simp] theorem recordDecode_out (d : DecodeResult) (s : State) : (recordDecode d s).out = s.out := rfl
@[simp] theorem recordDecode_ebuf (d : DecodeResult) (s : State) : (recordDecode d s).ebuf = s.ebuf := rfl
@[simp] theorem recordDecode_txbuf (d : DecodeResult) (s : State) : (recordDecode d s).txbuf = s.txbuf := rfl
@[simp] theorem recordDecode_rxbuf (d : DecodeResult) (s : State) : (recordDecode d s).rxbuf = s.rxbuf := rfl
@[simp] theorem recordDecode_dz (d : DecodeResult) (s : State) : (recordDecode d s).dz = s.dz := rfl
@[simp] theorem recordDecode_expo (d : DecodeResult) (s : State) : (recordDecode d s).expo = s.expo := rfl
@[simp] theorem recordDecode_tdz (d : DecodeResult) (s : State) : (recordDecode d s).tdz = s.tdz := rfl
@[simp] theorem recordDecode_rev (d : DecodeResult) (s : State) : (recordDecode d s).rev = s.rev := rfl
@[simp] theorem recordDecode_rate (d : DecodeResult) (s : State) : (recordDecode d s).rate = s.rate := rfl
@[simp] theorem recordDecode_failThr (d : DecodeResult) (s : State) : (recordDecode d s).failThr = s.failThr := rfl
@[simp] theorem recordDecode_statIvl (d : DecodeResult) (s : State) : (recordDecode d s).statIvl = s.statIvl := rfl
@[simp] theorem recordDecode_ien (d : DecodeResult) (s : State) : (recordDecode d s).ien = s.ien := rfl
@[simp] theorem recordDecode_crc (d : DecodeResult) (s : State) : (recordDecode d s).crc = s.crc := rfl
@[simp] theorem recordDecode_shpY (d : DecodeResult) (s : State) : (recordDecode d s).shpY = s.shpY := rfl
@[simp] theorem recordDecode_rxlen (d : DecodeResult) (s : State) : (recordDecode d s).rxlen = s.rxlen := rfl
@[simp] theorem recordDecode_evalid (d : DecodeResult) (s : State) : (recordDecode d s).evalid = s.evalid := rfl
@[simp] theorem recordDecode_dvalid (d : DecodeResult) (s : State) : (recordDecode d s).dvalid = decide (d.err = .ok) := rfl
@[simp] theorem recordDecode_rxovf (d : DecodeResult) (s : State) : (recordDecode d s).rxovf = s.rxovf := rfl
@[simp] theorem recordDecode_derr (d : DecodeResult) (s : State) : (recordDecode d s).derr = d.err := rfl
@[simp] theorem recordDecode_rtype (d : DecodeResult) (s : State) : (recordDecode d s).rtype = d.type := rfl
@[simp] theorem recordDecode_rplen (d : DecodeResult) (s : State) : (recordDecode d s).rplen = BitVec.ofNat 6 d.plen := rfl
@[simp] theorem recordDecode_sstate (d : DecodeResult) (s : State) : (recordDecode d s).sstate = s.sstate := rfl
@[simp] theorem recordDecode_mbxDirty (d : DecodeResult) (s : State) : (recordDecode d s).mbxDirty = s.mbxDirty := rfl
@[simp] theorem recordDecode_tickPend (d : DecodeResult) (s : State) : (recordDecode d s).tickPend = s.tickPend := rfl
@[simp] theorem recordDecode_cancelPend (d : DecodeResult) (s : State) : (recordDecode d s).cancelPend = s.cancelPend := rfl
@[simp] theorem recordDecode_fatalPend (d : DecodeResult) (s : State) : (recordDecode d s).fatalPend = s.fatalPend := rfl
@[simp] theorem recordDecode_failCnt (d : DecodeResult) (s : State) : (recordDecode d s).failCnt = s.failCnt := rfl
@[simp] theorem recordDecode_totalSent (d : DecodeResult) (s : State) : (recordDecode d s).totalSent = s.totalSent := rfl
@[simp] theorem recordDecode_statCnt (d : DecodeResult) (s : State) : (recordDecode d s).statCnt = s.statCnt := rfl
@[simp] theorem recordDecode_tmr (d : DecodeResult) (s : State) : (recordDecode d s).tmr = s.tmr := rfl
@[simp] theorem recordDecode_evt (d : DecodeResult) (s : State) : (recordDecode d s).evt = s.evt := rfl
@[simp] theorem recordDecode_inputs (d : DecodeResult) (s : State) : (recordDecode d s).inputs = s.inputs := rfl
@[simp] theorem recordDecode_trace (d : DecodeResult) (s : State) : (recordDecode d s).trace = s.trace := rfl

/-! ### Fields after `resetBlock` -/

@[simp] theorem resetBlock_ch (s : State) : (resetBlock s).ch = State.reset.ch := rfl
@[simp] theorem resetBlock_uch (s : State) : (resetBlock s).uch = State.reset.uch := rfl
@[simp] theorem resetBlock_mbx (s : State) : (resetBlock s).mbx = State.reset.mbx := rfl
@[simp] theorem resetBlock_out (s : State) : (resetBlock s).out = State.reset.out := rfl
@[simp] theorem resetBlock_ebuf (s : State) : (resetBlock s).ebuf = State.reset.ebuf := rfl
@[simp] theorem resetBlock_txbuf (s : State) : (resetBlock s).txbuf = State.reset.txbuf := rfl
@[simp] theorem resetBlock_rxbuf (s : State) : (resetBlock s).rxbuf = State.reset.rxbuf := rfl
@[simp] theorem resetBlock_dz (s : State) : (resetBlock s).dz = State.reset.dz := rfl
@[simp] theorem resetBlock_expo (s : State) : (resetBlock s).expo = State.reset.expo := rfl
@[simp] theorem resetBlock_tdz (s : State) : (resetBlock s).tdz = State.reset.tdz := rfl
@[simp] theorem resetBlock_rev (s : State) : (resetBlock s).rev = State.reset.rev := rfl
@[simp] theorem resetBlock_rate (s : State) : (resetBlock s).rate = State.reset.rate := rfl
@[simp] theorem resetBlock_failThr (s : State) : (resetBlock s).failThr = State.reset.failThr := rfl
@[simp] theorem resetBlock_statIvl (s : State) : (resetBlock s).statIvl = State.reset.statIvl := rfl
@[simp] theorem resetBlock_ien (s : State) : (resetBlock s).ien = State.reset.ien := rfl
@[simp] theorem resetBlock_crc (s : State) : (resetBlock s).crc = State.reset.crc := rfl
@[simp] theorem resetBlock_shpY (s : State) : (resetBlock s).shpY = State.reset.shpY := rfl
@[simp] theorem resetBlock_rxlen (s : State) : (resetBlock s).rxlen = State.reset.rxlen := rfl
@[simp] theorem resetBlock_evalid (s : State) : (resetBlock s).evalid = State.reset.evalid := rfl
@[simp] theorem resetBlock_dvalid (s : State) : (resetBlock s).dvalid = State.reset.dvalid := rfl
@[simp] theorem resetBlock_rxovf (s : State) : (resetBlock s).rxovf = State.reset.rxovf := rfl
@[simp] theorem resetBlock_derr (s : State) : (resetBlock s).derr = State.reset.derr := rfl
@[simp] theorem resetBlock_rtype (s : State) : (resetBlock s).rtype = State.reset.rtype := rfl
@[simp] theorem resetBlock_rplen (s : State) : (resetBlock s).rplen = State.reset.rplen := rfl
@[simp] theorem resetBlock_sstate (s : State) : (resetBlock s).sstate = State.reset.sstate := rfl
@[simp] theorem resetBlock_mbxDirty (s : State) : (resetBlock s).mbxDirty = State.reset.mbxDirty := rfl
@[simp] theorem resetBlock_tickPend (s : State) : (resetBlock s).tickPend = State.reset.tickPend := rfl
@[simp] theorem resetBlock_cancelPend (s : State) : (resetBlock s).cancelPend = State.reset.cancelPend := rfl
@[simp] theorem resetBlock_fatalPend (s : State) : (resetBlock s).fatalPend = State.reset.fatalPend := rfl
@[simp] theorem resetBlock_failCnt (s : State) : (resetBlock s).failCnt = State.reset.failCnt := rfl
@[simp] theorem resetBlock_totalSent (s : State) : (resetBlock s).totalSent = State.reset.totalSent := rfl
@[simp] theorem resetBlock_statCnt (s : State) : (resetBlock s).statCnt = State.reset.statCnt := rfl
@[simp] theorem resetBlock_tmr (s : State) : (resetBlock s).tmr = State.reset.tmr := rfl
@[simp] theorem resetBlock_evt (s : State) : (resetBlock s).evt = State.reset.evt := rfl
@[simp] theorem resetBlock_inputs (s : State) : (resetBlock s).inputs = s.inputs := rfl
@[simp] theorem resetBlock_trace (s : State) : (resetBlock s).trace = s.trace := rfl

/-! ### Composite updates as the updates they are made of -/

/-- A command that completes responds `OK`. -/
@[simp] theorem respondOk_eq (d : Word) (s : State) : respondOk d s = respond .ok d s := rfl

/-- A command that fails responds its status with data 0, and nothing else changes. -/
@[simp] theorem failWith_eq (st : Status) (s : State) : failWith st s = respond st 0#32 s := rfl

/-- The end of `SCH.CANCEL` and `SCH.PCLOSE` is a response with the scheduler state. -/
@[simp] theorem respondSstate_eq (s : State) :
    respondSstate s = respond .ok ((sstateCode s.sstate).setWidth 32) s := rfl

/-- A shaper command's result is `SHP_Y`, the channel, and a response with both. -/
@[simp] theorem storeShaped_eq (c : Fin 16) (y : BitVec 16) (v : Chan) (s : State) :
    storeShaped c y v s = respond .ok (shaperData v y) (setCh c v { s with shpY := y }) := rfl

end Sys2Proof.Machine
end

