-- ==== Sys2Proof/Laws/Ops.lean ====
section
/-! SUPPORT. What each shared operation can do, said once. -/

namespace Sys2Proof.Machine

/-! ### Numbers and names -/

/-- A register number names a register exactly when it is one of 0x10..0x1D, 0x20..0x26, 0x30..0x37 (R16). -/
theorem regOf_isSome_iff (r : Nat) :
    (regOf r).isSome = true ↔ (0x10 ≤ r ∧ r ≤ 0x1D) ∨ (0x20 ≤ r ∧ r ≤ 0x26) ∨ (0x30 ≤ r ∧ r ≤ 0x37) := by
  by_cases h : r < 0x38
  · interval_cases r <;> decide
  · have : regOf r = none := by
      unfold regOf
      split <;> first | omega | rfl
    rw [this]
    simp
    omega

/-- A number outside the three ranges names no register (R16). -/
theorem regOf_eq_none {r : Nat} (h : ¬ ((0x10 ≤ r ∧ r ≤ 0x1D) ∨ (0x20 ≤ r ∧ r ≤ 0x26) ∨ (0x30 ≤ r ∧ r ≤ 0x37))) :
    regOf r = none := by
  rw [← regOf_isSome_iff] at h
  simpa using h

/-- A space number names a space exactly when it is at most 8 (R30). -/
theorem spaceOf_isSome_iff (n : Nat) : (spaceOf n).isSome = true ↔ n ≤ 8 := by
  by_cases h : n ≤ 8
  · interval_cases n <;> decide
  · have : spaceOf n = none := by
      unfold spaceOf
      split <;> first | omega | rfl
    rw [this]
    simp
    omega

/-- A channel number below 16 names its channel (R12). -/
theorem channelOf_of_lt {c : Nat} (h : c < 16) : channelOf c = some ⟨c, h⟩ := dif_pos h

/-- A channel number from 16 up names none (R12). -/
theorem channelOf_of_ge {c : Nat} (h : 16 ≤ c) : channelOf c = none := dif_neg (by omega)

/-- An axis number below 4 names its axis (R99). -/
theorem axisOf_of_lt {a : Nat} (h : a < 4) : axisOf a = some ⟨a, h⟩ := dif_pos h

/-- An axis number from 4 up names none (R99). -/
theorem axisOf_of_ge {a : Nat} (h : 4 ≤ a) : axisOf a = none := dif_neg (by omega)

/-! ### Reading and writing registers and spaces -/

/-- What a register read answers. -/
theorem regRead_eq_some {r : Nat} {s : State} {v : Word} (h : regRead r s = some v) :
    ∃ reg, regOf r = some reg ∧ v = regValue reg s := by
  unfold regRead at h
  cases hr : regOf r with
  | none => rw [hr] at h; cases h
  | some reg => rw [hr] at h; exact ⟨reg, rfl, (Option.some.inj h).symm⟩

/-- Everything a register write can do (R56). -/
theorem regWrite_cases {reg : Reg} {v : BitVec 16} {s t : State} (h : regWrite reg v s = some t) :
    (∃ a : Fin 4, reg = .dz a ∧ t = { s with dz := s.dz.set a (deadzoneOperand v) }) ∨
    (∃ a : Fin 4, reg = .expo a ∧ t = { s with expo := s.expo.set a (expoOperand v) }) ∨
    (reg = .tdz ∧ t = { s with tdz := deadzoneOperand v }) ∨
    (reg = .rev ∧ t = { s with rev := v }) ∨
    (reg = .rate ∧ t = { s with rate := rateOperand v }) ∨
    (reg = .failThr ∧ t = { s with failThr := v }) ∨
    (reg = .statIvl ∧ t = { s with statIvl := v }) ∨
    (reg = .ien ∧ t = { s with ien := maskOperand v }) ∨
    (reg = .evt ∧ t = { s with evt := s.evt &&& ~~~ (maskOperand v) }) := by
  cases reg <;> simp [regWrite] at h <;> subst h <;> simp

/-- What a space read answers. -/
theorem spaceRead_eq_some {n off : Nat} {s : State} {v : Word} (h : spaceRead n off s = some v) :
    ∃ sp, spaceOf n = some sp ∧ off < spaceSize sp ∧ v = spaceElem sp off s := by
  unfold spaceRead at h
  split at h
  · cases h
  · rename_i sp hsp
    split at h
    · exact ⟨sp, hsp, ‹_›, (Option.some.inj h).symm⟩
    · cases h

/-- An element number inside a vector reads that element. -/
theorem chanAt_of_lt (v : ChanVec) {off : Nat} (h : off < 16) : chanAt v off = v[off] := by
  simp [chanAt, h]

/-! ### The scheduler's operations -/

/-- The take: `OUT` becomes the last published vector not yet taken, and none is left to take (R40). -/
theorem takeMailbox_eq (s : State) :
    takeMailbox s = { s with out := if s.mbxDirty then s.mbx else s.out, mbxDirty := false } := by
  unfold takeMailbox
  cases h : s.mbxDirty
  · cases s; simp_all
  · simp

/-- Everything `start_send` does (R115). -/
theorem startSend_eq (s : State) :
    startSend s = { s with
      out := if s.mbxDirty then s.mbx else s.out
      mbxDirty := false
      txbuf := Memory.ofBytes (frame (if s.mbxDirty then s.mbx else s.out))
      sstate := .send
      trace := s.trace ++ [.txReq (frame (if s.mbxDirty then s.mbx else s.out))] } := by
  simp only [startSend, takeMailbox_eq]

/-- A tick at the wait point starts a send (R114). -/
theorem tick_wait {s : State} (h : s.sstate = .wait) : tick s = startSend s := by simp [tick, h]

/-- A tick during a send is remembered (R114). -/
theorem tick_send {s : State} (h : s.sstate = .send) : tick s = { s with tickPend := true } := by simp [tick, h]

/-- Everything the wait point can do, by priority (R118). -/
theorem waitPoint_cases (s : State) :
    (s.fatalPend = true ∧ waitPoint s = emit .exitFatal
      { s with sstate := .exitFatal, tickPend := false, cancelPend := false, fatalPend := false }) ∨
    (s.fatalPend = false ∧ s.cancelPend = true ∧ waitPoint s = emit .exitCancel
      { s with sstate := .exitCancel, tickPend := false, cancelPend := false }) ∨
    (s.fatalPend = false ∧ s.cancelPend = false ∧ s.tickPend = true ∧
      waitPoint s = startSend { s with tickPend := false }) ∨
    (s.fatalPend = false ∧ s.cancelPend = false ∧ s.tickPend = false ∧ waitPoint s = { s with sstate := .wait }) := by
  unfold waitPoint
  cases s.fatalPend <;> cases s.cancelPend <;> cases s.tickPend <;> simp

/-- Everything a timebase pulse can do (R113, R114). -/
theorem tbStep_cases (s : State) :
    (s.sstate ≠ .wait ∧ s.sstate ≠ .send ∧ tbStep s = s) ∨
    ((s.sstate = .wait ∨ s.sstate = .send) ∧ s.tmr ≠ 0#20 ∧ tbStep s = { s with tmr := s.tmr - 1#20 }) ∨
    (s.sstate = .wait ∧ s.tmr = 0#20 ∧ tbStep s = startSend { s with tmr := timerReload s }) ∨
    (s.sstate = .send ∧ s.tmr = 0#20 ∧ tbStep s = { s with tmr := timerReload s, tickPend := true }) := by
  unfold tbStep timerRuns
  by_cases h0 : s.tmr = 0#20 <;> cases hs : s.sstate <;> simp [h0, tick]

/-- Everything counting a success towards the status summary can do (R116). -/
theorem countStatus_cases (s : State) :
    (s.statIvl = 0#16 ∧ countStatus s = { s with statCnt := 0#16 }) ∨
    (s.statIvl ≠ 0#16 ∧ s.statIvl.toNat ≤ s.statCnt.toNat + 1 ∧
      countStatus s = emit .status { s with statCnt := 0#16 }) ∨
    (s.statIvl ≠ 0#16 ∧ s.statCnt.toNat + 1 < s.statIvl.toNat ∧
      countStatus s = { s with statCnt := s.statCnt + 1#16 }) := by
  unfold countStatus
  by_cases h : s.statIvl = 0#16
  · simp [h]
  · by_cases h2 : s.statIvl.toNat ≤ s.statCnt.toNat + 1
    · simp [h, h2]
    · simp [h, h2]
      omega

/-- Everything counting a failure can do (R117). -/
theorem countFailure_cases (s : State) :
    (s.failThr.toNat ≤ (failCntNext s).toNat ∧
      countFailure s = emit .failWarn { s with failCnt := failCntNext s }) ∨
    ((failCntNext s).toNat < s.failThr.toNat ∧
      countFailure s = emit .failLow { s with failCnt := failCntNext s }) := by
  unfold countFailure
  by_cases h : s.failThr.toNat ≤ (failCntNext s).toNat
  · simp [h]
  · simp [h]
    omega

/-- The failure counter counts up by one and stays at 65535 (R117). -/
theorem failCntNext_toNat (s : State) : (failCntNext s).toNat = min (s.failCnt.toNat + 1) 65535 := by
  simp [failCntNext]

/-- A transport result outside `SEND` changes nothing (R123). -/
theorem txrStep_of_not_send {s : State} (ok : Bool) (h : s.sstate ≠ .send) : txrStep ok s = s := by
  cases ok <;> simp [txrStep, txrOkStep, txrFailStep, h]

/-- The value the timer is loaded with is below 1000000, so it loses no bit. -/
theorem timerReload_toNat (s : State) : (timerReload s).toNat = 1000000 / s.rate.toNat - 1 := by
  have : 1000000 / s.rate.toNat ≤ 1000000 := Nat.div_le_self _ _
  simp only [timerReload, period, Config.tbPerSecond, BitVec.toNat_ofNat]
  omega

end Sys2Proof.Machine
end

