-- ==== Sys2Proof/Laws/PerInstr.lean ====
section
/-! SUPPORT. The per-instruction family `EncodeFields`: the word the encoder writes for a well-formed command has the command's
opcode, index and immediate in their fields, and no bit its format reserves. -/

namespace Sys2Proof.Laws

/-- The opcode field of three concatenated fields. -/
theorem opField_append (a b : BitVec 8) (c : BitVec 16) : opField (a ++ b ++ c) = a := by
  ext i hi
  simp only [opField, BitVec.getElem_extractLsb', BitVec.getLsbD_append]
  rw [if_neg (by omega), if_neg (by omega), show 24 + i - 16 - 8 = i by omega, BitVec.getLsbD_eq_getElem hi]

/-- The index field of three concatenated fields. -/
theorem idxField_append (a b : BitVec 8) (c : BitVec 16) : idxField (a ++ b ++ c) = b := by
  ext i hi
  simp only [idxField, BitVec.getElem_extractLsb', BitVec.getLsbD_append]
  rw [if_neg (by omega), if_pos (by omega), show 16 + i - 16 = i by omega, BitVec.getLsbD_eq_getElem hi]

/-- The immediate field of three concatenated fields. -/
theorem immField_append (a b : BitVec 8) (c : BitVec 16) : immField (a ++ b ++ c) = c := by
  ext i hi
  simp only [immField, BitVec.getElem_extractLsb', BitVec.getLsbD_append]
  rw [if_pos (by omega), Nat.zero_add, BitVec.getLsbD_eq_getElem hi]

/-- A row of the opcode map stands behind the command, and its word keeps the row's reserved bits clear (R44, R46). -/
def EncodeFields.Statement (i : Instr) : Prop :=
  i.wellFormed = true →
    opField (encode i) = i.opcode ∧ idxField (encode i) = i.idxOperand ∧ immField (encode i) = i.immOperand ∧
      ∃ row, findRow i.opcode = some row ∧ encode i &&& row.format.reservedMask = 0#32

/-- The three fields of an encoded command. -/
theorem fields_encode (i : Instr) :
    opField (encode i) = i.opcode ∧ idxField (encode i) = i.idxOperand ∧ immField (encode i) = i.immOperand :=
  ⟨opField_append _ _ _, idxField_append _ _ _, immField_append _ _ _⟩

/-- A word of format `X` keeps the immediate clear. -/
theorem reserved_x (a b : BitVec 8) : (a ++ b ++ 0#16 : Word) &&& Format.x.reservedMask = 0#32 := by
  apply BitVec.eq_of_getLsbD_eq
  intro i hi
  simp only [Format.reservedMask, BitVec.getLsbD_and, BitVec.getLsbD_append, BitVec.getLsbD_zero]
  by_cases h : i < 16
  · simp [h]
  · have : (0x0000FFFF#32).getLsbD i = false := by
      interval_cases i <;> simp_all
    simp [this]

/-- A word of format `I8` keeps all but its byte clear. -/
theorem reserved_i8 (a : BitVec 8) (b : Byte) :
    (a ++ 0#8 ++ b.setWidth 16 : Word) &&& Format.i8.reservedMask = 0#32 := by
  apply BitVec.eq_of_getLsbD_eq
  intro i hi
  simp only [Format.reservedMask, BitVec.getLsbD_and, BitVec.getLsbD_append, BitVec.getLsbD_zero,
    BitVec.getLsbD_setWidth]
  by_cases h : 8 ≤ i ∧ i < 24
  · by_cases h16 : i < 16
    · simp [h16, BitVec.getLsbD_of_ge b i h.1]
    · have : i - 16 < 8 := by omega
      simp [h16, this]
  · have : (0x00FFFF00#32).getLsbD i = false := by
      interval_cases i <;> simp_all
    simp [this]

/-- A word of format `XB` keeps all but its bit clear. -/
theorem reserved_xb (a b : BitVec 8) (p : Bool) :
    (a ++ b ++ (BitVec.ofBool p).setWidth 16 : Word) &&& Format.xb.reservedMask = 0#32 := by
  apply BitVec.eq_of_getLsbD_eq
  intro i hi
  simp only [Format.reservedMask, BitVec.getLsbD_and, BitVec.getLsbD_append, BitVec.getLsbD_zero,
    BitVec.getLsbD_setWidth]
  by_cases h : 1 ≤ i ∧ i < 16
  · have hb : (BitVec.ofBool p).getLsbD i = false := BitVec.getLsbD_of_ge _ i h.1
    simp [h.2, hb]
  · have : (0x0000FFFE#32).getLsbD i = false := by
      interval_cases i <;> simp_all
    simp [this]

/-- A command whose word is a row's opcode with nothing else set. -/
theorem EncodeFields.of_row {i : Instr} {row : OpRow} (hrow : findRow i.opcode = some row)
    (h : encode i &&& row.format.reservedMask = 0#32) : EncodeFields.Statement i := fun _ =>
  ⟨(fields_encode i).1, (fields_encode i).2.1, (fields_encode i).2.2, row, hrow, h⟩

/-- A format without reserved bits reserves nothing. -/
theorem reserved_xi (w : Word) : w &&& Format.xi.reservedMask = 0#32 := BitVec.and_zero

theorem EncodeFields.nop : EncodeFields.Statement .nop := of_row rfl (by decide)
theorem EncodeFields.reset : EncodeFields.Statement .reset := of_row rfl (by decide)
theorem EncodeFields.rd (r : Nat) : EncodeFields.Statement (.rd r) := of_row rfl (reserved_x _ _)
theorem EncodeFields.wr (r : Nat) (v : BitVec 16) : EncodeFields.Statement (.wr r v) := of_row rfl (reserved_xi _)
theorem EncodeFields.rdm (sp off : Nat) : EncodeFields.Statement (.rdm sp off) := of_row rfl (reserved_xi _)
theorem EncodeFields.crcInit : EncodeFields.Statement .crcInit := of_row rfl (by decide)
theorem EncodeFields.crcUpd (b : Byte) : EncodeFields.Statement (.crcUpd b) := of_row rfl (reserved_i8 _ _)
theorem EncodeFields.chSet (c : Nat) (v : BitVec 16) : EncodeFields.Statement (.chSet c v) :=
  of_row rfl (reserved_xi _)
theorem EncodeFields.chBtn (c : Nat) (p : Bool) : EncodeFields.Statement (.chBtn c p) := of_row rfl (reserved_xb _ _ _)
theorem EncodeFields.enc : EncodeFields.Statement .enc := of_row rfl (by decide)
theorem EncodeFields.rxClr : EncodeFields.Statement .rxClr := of_row rfl (by decide)
theorem EncodeFields.rxPush (b : Byte) : EncodeFields.Statement (.rxPush b) := of_row rfl (reserved_i8 _ _)
theorem EncodeFields.dec : EncodeFields.Statement .dec := of_row rfl (by decide)
theorem EncodeFields.unpk : EncodeFields.Statement .unpk := of_row rfl (by decide)
theorem EncodeFields.shpAx (a : Nat) (x : BitVec 16) : EncodeFields.Statement (.shpAx a x) :=
  of_row rfl (reserved_xi _)
theorem EncodeFields.shpTrg (c : Nat) (x : BitVec 16) : EncodeFields.Statement (.shpTrg c x) :=
  of_row rfl (reserved_xi _)
theorem EncodeFields.schPub : EncodeFields.Statement .schPub := of_row rfl (by decide)
theorem EncodeFields.schStart : EncodeFields.Statement .schStart := of_row rfl (by decide)
theorem EncodeFields.schCancel : EncodeFields.Statement .schCancel := of_row rfl (by decide)
theorem EncodeFields.schPclose : EncodeFields.Statement .schPclose := of_row rfl (by decide)

end Sys2Proof.Laws
end

