-- ==== Sys2Proof/Laws/Step.lean ====
section
/-! SUPPORT. Which input a step takes, and everything a step can do. -/

namespace Sys2Proof.Machine

/-- The reset pin comes first (R135). -/
@[simp] theorem takeInput_hreset (txr : Option Bool) (tb : Bool) (cmd : Option Word) (later : List Arrival) :
    takeInput (⟨true, txr, tb, cmd⟩ :: later) = some (.hreset, ⟨false, txr, tb, cmd⟩ :: later) := rfl

/-- A transport result comes before a pulse and a command (R135). -/
@[simp] theorem takeInput_txr (ok tb : Bool) (cmd : Option Word) (later : List Arrival) :
    takeInput (⟨false, some ok, tb, cmd⟩ :: later) = some (.txr ok, ⟨false, none, tb, cmd⟩ :: later) := rfl

/-- A pulse comes before a command (R135). -/
@[simp] theorem takeInput_tb (cmd : Option Word) (later : List Arrival) :
    takeInput (⟨false, none, true, cmd⟩ :: later) = some (.tb, ⟨false, none, false, cmd⟩ :: later) := rfl

/-- A command alone is taken, and its instant is over. -/
@[simp] theorem takeInput_command (w : Word) (later : List Arrival) :
    takeInput (⟨false, none, false, some w⟩ :: later) = some (.command w, later) := rfl

/-- An instant at which nothing is presented is passed over. -/
@[simp] theorem takeInput_empty (later : List Arrival) :
    takeInput (⟨false, none, false, none⟩ :: later) = takeInput later := rfl

/-- Everything a step can do. -/
theorem step_cases {s t : State} (h : step s = .next t) :
    (takeInput s.inputs = none ∧ t = s) ∨
    (∃ rest, takeInput s.inputs = some (.hreset, rest) ∧ t = hresetStep { s with inputs := rest }) ∨
    (∃ ok rest, takeInput s.inputs = some (.txr ok, rest) ∧ t = txrStep ok { s with inputs := rest }) ∨
    (∃ rest, takeInput s.inputs = some (.tb, rest) ∧ t = tbStep { s with inputs := rest }) ∨
    (∃ w rest, takeInput s.inputs = some (.command w, rest) ∧ decode w = .illegal ∧
      t = respond .illegal 0#32 { s with inputs := rest }) ∨
    (∃ w rest, takeInput s.inputs = some (.command w, rest) ∧ decode w = .reserved ∧
      t = respond .rsvd 0#32 { s with inputs := rest }) ∨
    (∃ w rest i, takeInput s.inputs = some (.command w, rest) ∧ decode w = .command i ∧
      exec i { s with inputs := rest } = .next t) := by
  unfold step at h
  split at h
  · rename_i hin
    cases h
    exact .inl ⟨hin, rfl⟩
  · rename_i inp rest hin
    cases inp with
    | hreset => cases h; exact .inr (.inl ⟨rest, hin, rfl⟩)
    | txr ok => cases h; exact .inr (.inr (.inl ⟨ok, rest, hin, rfl⟩))
    | tb => cases h; exact .inr (.inr (.inr (.inl ⟨rest, hin, rfl⟩)))
    | command w =>
      simp only [runInput, runWord] at h
      split at h
      · rename_i hd
        cases h
        exact .inr (.inr (.inr (.inr (.inl ⟨w, rest, hin, hd, rfl⟩))))
      · rename_i hd
        cases h
        exact .inr (.inr (.inr (.inr (.inr (.inl ⟨w, rest, hin, hd, rfl⟩)))))
      · rename_i i hd
        exact .inr (.inr (.inr (.inr (.inr (.inr ⟨w, rest, i, hin, hd, h⟩)))))

/-! ### The commands whose meaning tests something -/

/-- `RD` of an existing register (R55). -/
theorem execRd_of_some {r : Nat} {s : State} {reg : Reg} (h : regOf r = some reg) :
    execRd r s = .next (respond .ok (regValue reg s) s) := by
  simp [execRd, regRead, h]

/-- `RD` of a register that does not exist (R55). -/
theorem execRd_of_none {r : Nat} {s : State} (h : regOf r = none) : execRd r s = .next (respond .badIdx 0#32 s) := by
  simp [execRd, regRead, h]

/-- Everything `WR` can do (R56). -/
theorem execWr_cases {r : Nat} {v : BitVec 16} {s t : State} (h : execWr r v s = .next t) :
    (regOf r = none ∧ t = respond .badIdx 0#32 s) ∨
    (∃ reg, regOf r = some reg ∧ regWrite reg v s = none ∧ t = respond .rdOnly 0#32 s) ∨
    (∃ reg u, regOf r = some reg ∧ regWrite reg v s = some u ∧ t = respond .ok 0#32 u) := by
  unfold execWr at h
  split at h
  · rename_i hr
    cases h
    exact .inl ⟨hr, rfl⟩
  · rename_i reg hr
    split at h
    · rename_i hw
      cases h
      exact .inr (.inl ⟨reg, hr, hw, rfl⟩)
    · rename_i u hw
      cases h
      exact .inr (.inr ⟨reg, u, hr, hw, rfl⟩)

/-- Everything `ENC` can do (R77): the new buffer by its defining equation, so that no proof evaluates a frame. -/
theorem execEnc_cases {s t : State} (h : execEnc s = .next t) :
    ∃ (m : Memory) (d : Word), m = Memory.ofBytes (frame s.ch) ∧ d = ((frame s.ch).getD 25 0x00#8).setWidth 32 ∧
      t = respond .ok d { s with ebuf := m, evalid := true } :=
  ⟨_, _, rfl, rfl, (Host.Outcome.next.inj h).symm⟩

/-- Everything `DEC` can do (R78): what the frame check finds by its defining equation. -/
theorem execDec_cases {s t : State} (h : execDec s = .next t) :
    ∃ (d : DecodeResult), d = decodeFrame (rxBytes s) ∧
      t = respond .ok ((derrCode d.err).setWidth 32) (recordDecode d s) :=
  ⟨_, rfl, (Host.Outcome.next.inj h).symm⟩

/-- Everything `RX.PUSH` can do (R80). -/
theorem execRxPush_cases {b : Byte} {s t : State} (h : execRxPush b s = .next t) :
    (s.rxlen = 64#7 ∧ t = respond .ok 64#32 { s with rxovf := true }) ∨
    (s.rxlen ≠ 64#7 ∧ t = respond .ok ((s.rxlen + 1#7).setWidth 32)
      { s with rxbuf := s.rxbuf.write s.rxlen.toNat b, rxlen := s.rxlen + 1#7, dvalid := false }) := by
  unfold execRxPush at h
  split at h
  · rename_i hl; cases h; exact .inl ⟨hl, rfl⟩
  · rename_i hl; cases h; exact .inr ⟨hl, rfl⟩

/-- Everything `UNPK` can do (R81). -/
theorem execUnpk_cases {s t : State} (h : execUnpk s = .next t) :
    ((s.dvalid = false ∨ s.rplen.toNat < 22) ∧ t = respond .refused 0#32 s) ∨
    (s.dvalid = true ∧ 22 ≤ s.rplen.toNat ∧
      t = respond .ok 0#32 { s with uch := unpack (s.rxbuf.readBytes 3 22) }) := by
  unfold execUnpk at h
  split at h
  · rename_i hc; cases h; exact .inl ⟨hc, rfl⟩
  · rename_i hc
    cases h
    simp only [not_or, Bool.not_eq_false, Nat.not_lt] at hc
    exact .inr ⟨hc.1, hc.2, rfl⟩

/-- Everything `SHP.AX` can do (R99). -/
theorem execShpAx_cases {a : Nat} {x : BitVec 16} {s t : State} (h : execShpAx a x s = .next t) :
    (4 ≤ a ∧ t = respond .badIdx 0#32 s) ∨
    (∃ (ha : a < 4) (y : Int), y = shapeAxis x s.dz[a].toNat s.expo[a].toNat ∧
      t = respond .ok (shaperData (BitVec.ofNat 11 (mapS y)) (tc16 y))
        { s with shpY := tc16 y, ch := s.ch.set a (BitVec.ofNat 11 (mapS y)) }) := by
  by_cases ha : a < 4
  · simp only [execShpAx, axisOf_of_lt ha] at h
    cases h
    exact .inr ⟨ha, _, rfl, rfl⟩
  · simp only [execShpAx, axisOf_of_ge (Nat.not_lt.mp ha)] at h
    cases h
    exact .inl ⟨Nat.not_lt.mp ha, rfl⟩

/-- Everything `SHP.TRG` can do (R100). -/
theorem execShpTrg_cases {c : Nat} {x : BitVec 16} {s t : State} (h : execShpTrg c x s = .next t) :
    (16 ≤ c ∧ t = respond .badIdx 0#32 s) ∨
    (∃ (hc : c < 16) (y : Nat), y = shapeTrigger x s.tdz.toNat ∧
      t = respond .ok (shaperData (BitVec.ofNat 11 (mapU y)) (BitVec.ofNat 16 y))
        { s with shpY := BitVec.ofNat 16 y, ch := s.ch.set c (BitVec.ofNat 11 (mapU y)) }) := by
  by_cases hc : c < 16
  · simp only [execShpTrg, channelOf_of_lt hc] at h
    cases h
    exact .inr ⟨hc, _, rfl, rfl⟩
  · simp only [execShpTrg, channelOf_of_ge (Nat.not_lt.mp hc)] at h
    cases h
    exact .inl ⟨Nat.not_lt.mp hc, rfl⟩

/-- Everything `SCH.CANCEL` can do (R121). -/
theorem execSchCancel_cases {s t : State} (h : execSchCancel s = .next t) :
    ((s.sstate = .stopped ∨ s.sstate = .wait) ∧
      t = respond .ok 3#32 (emit .exitCancel { s with sstate := .exitCancel })) ∨
    (s.sstate = .send ∧ t = respond .ok 2#32 { s with cancelPend := true }) ∨
    (s.sstate = .exitCancel ∧ t = respond .ok 3#32 s) ∨
    (s.sstate = .exitFatal ∧ t = respond .ok 4#32 s) := by
  unfold execSchCancel at h
  cases hs : s.sstate <;> simp only [hs] at h <;> cases h <;> simp [hs, sstateCode]

/-- Everything `SCH.PCLOSE` can do (R122). -/
theorem execSchPclose_cases {s t : State} (h : execSchPclose s = .next t) :
    ((s.sstate = .stopped ∨ s.sstate = .wait) ∧
      t = respond .ok 4#32 (emit .exitFatal { s with sstate := .exitFatal })) ∨
    (s.sstate = .send ∧ t = respond .ok 2#32 { s with fatalPend := true }) ∨
    (s.sstate = .exitCancel ∧ t = respond .ok 3#32 s) ∨
    (s.sstate = .exitFatal ∧ t = respond .ok 4#32 s) := by
  unfold execSchPclose at h
  cases hs : s.sstate <;> simp only [hs] at h <;> cases h <;> simp [hs, sstateCode]

end Sys2Proof.Machine
end

