-- ==== Sys2Proof/Machine/Pseudo.lean ====
section
/-! DEFINITION. The pseudo-instructions of the assembler (R51) with their expansions. They exist only in the assembler: none has a
word of its own, and the block sees the commands they expand to. -/

namespace Sys2Proof.Machine

/-- A pseudo-instruction (R51). -/
inductive Pseudo where
  /-- `CRC.BUF b0, ..., bn` -/
  | crcBuf (bs : List Byte)
  /-- `RX.LOAD b0, ..., bn` -/
  | rxLoad (bs : List Byte)
  /-- `CFG.AX a, dz, e`: `a` an axis -/
  | cfgAx (a : Fin 4) (dz e : BitVec 16)
  /-- `EVT.ACK m` -/
  | evtAck (m : BitVec 16)
  /-- `BTN.ON c` -/
  | btnOn (c : Nat)
  /-- `BTN.OFF c` -/
  | btnOff (c : Nat)
deriving DecidableEq, Repr

/-- The commands a pseudo-instruction stands for, in order (R51). -/
def Pseudo.expand : Pseudo → List Instr
  | .crcBuf bs => .crcInit :: bs.map Instr.crcUpd
  | .rxLoad bs => .rxClr :: bs.map Instr.rxPush
  | .cfgAx a dz e => [.wr (0x10 + a.val) dz, .wr (0x14 + a.val) e]
  | .evtAck m => [.wr 0x37 m]
  | .btnOn c => [.chBtn c true]
  | .btnOff c => [.chBtn c false]

/-- The words a pseudo-instruction assembles to. -/
def Pseudo.words (p : Pseudo) : List Word := p.expand.map encode

end Sys2Proof.Machine
end

