-- ==== Sys2Proof/Tests/Slice0.lean ====
section
/-! SUPPORT. The model's own tests. Expected words and results are those of `30_encoding.md` and `95_test_vectors.md` (the vector's
name stands in the docstring), or worked out by hand from a rule. The witnesses at the end show, for each statement with
hypotheses, values that meet them, at the ends of each clause's range. -/

namespace Sys2Proof.Tests

open Sys2Proof.Machine Sys2Proof.Safety

/-! ### Well-formedness: one ill-formed term per check -/

/-- An index operand of 256 does not fit `w[23:16]`, in each command that has one. -/
theorem test_illFormed_index :
    (Instr.rd 256).wellFormed = false ∧ (Instr.wr 256 0#16).wellFormed = false ∧
    (Instr.rdm 256 0).wellFormed = false ∧ (Instr.chSet 256 0#16).wellFormed = false ∧
    (Instr.chBtn 256 true).wellFormed = false ∧ (Instr.shpAx 256 0#16).wellFormed = false ∧
    (Instr.shpTrg 256 0#16).wellFormed = false := by decide

/-- An offset of 65536 does not fit `w[15:0]`. -/
theorem test_illFormed_offset : (Instr.rdm 0 65536).wellFormed = false := by decide

/-! ### Decoding: a word for every constructor, its fields written out from R44 and R46 -/

/-- Group 0x0, the fields in binary. -/
theorem test_decode_host :
    decode (0b00000000#8 ++ 0b00000000#8 ++ 0b0000000000000000#16) = .command .nop ∧
    decode (0b00000001#8 ++ 0b00000000#8 ++ 0b0000000000000000#16) = .command .reset ∧
    decode (0b00000010#8 ++ 0b00110111#8 ++ 0b0000000000000000#16) = .command (.rd 0x37) ∧
    decode (0b00000011#8 ++ 0b00010000#8 ++ 0b0001001110001000#16) = .command (.wr 0x10 5000#16) ∧
    decode (0b00000100#8 ++ 0b00001000#8 ++ 0b0000000001000000#16) = .command (.rdm 8 64) := by decide

/-- Group 0x1. -/
theorem test_decode_crc :
    decode (0b00010000#8 ++ 0b00000000#8 ++ 0b0000000000000000#16) = .command .crcInit ∧
    decode (0b00010001#8 ++ 0b00000000#8 ++ 0b0000000010111100#16) = .command (.crcUpd 0xBC#8) := by decide

/-- Group 0x2. -/
theorem test_decode_codec :
    decode (0b00100000#8 ++ 0b00000100#8 ++ 0b0000010111011100#16) = .command (.chSet 4 1500#16) ∧
    decode (0b00100001#8 ++ 0b00000100#8 ++ 0b0000000000000001#16) = .command (.chBtn 4 true) ∧
    decode (0b00100010#8 ++ 0b00000000#8 ++ 0b0000000000000000#16) = .command .enc ∧
    decode (0b00100011#8 ++ 0b00000000#8 ++ 0b0000000000000000#16) = .command .rxClr ∧
    decode (0b00100100#8 ++ 0b00000000#8 ++ 0b0000000011101110#16) = .command (.rxPush 0xEE#8) ∧
    decode (0b00100101#8 ++ 0b00000000#8 ++ 0b0000000000000000#16) = .command .dec ∧
    decode (0b00100110#8 ++ 0b00000000#8 ++ 0b0000000000000000#16) = .command .unpk := by decide

/-- Group 0x3. -/
theorem test_decode_shaper :
    decode (0b00110000#8 ++ 0b00000001#8 ++ 0b1111111111111111#16) = .command (.shpAx 1 0xFFFF#16) ∧
    decode (0b00110001#8 ++ 0b00000101#8 ++ 0b0010000000000000#16) = .command (.shpTrg 5 8192#16) := by decide

/-- Group 0x4. -/
theorem test_decode_scheduler :
    decode (0b01000000#8 ++ 0b00000000#8 ++ 0b0000000000000000#16) = .command .schPub ∧
    decode (0b01000001#8 ++ 0b00000000#8 ++ 0b0000000000000000#16) = .command .schStart ∧
    decode (0b01000010#8 ++ 0b00000000#8 ++ 0b0000000000000000#16) = .command .schCancel ∧
    decode (0b01000011#8 ++ 0b00000000#8 ++ 0b0000000000000000#16) = .command .schPclose := by decide

/-- Words with a reserved bit set (V-HA-26) and with an undefined opcode (V-HA-25). -/
theorem test_decode_refuses :
    decode 0x00000001#32 = .reserved ∧ decode 0x01010000#32 = .reserved ∧ decode 0x02360001#32 = .reserved ∧
    decode 0x02500001#32 = .reserved ∧ decode 0x11000100#32 = .reserved ∧ decode 0x11010000#32 = .reserved ∧
    decode 0x21040002#32 = .reserved ∧ decode 0x22000001#32 = .reserved ∧ decode 0x40010000#32 = .reserved ∧
    decode 0x050000FF#32 = .illegal ∧ decode 0xFF000000#32 = .illegal := by decide

/-- The encoder writes the words of V-SHP-21, V-COD-23 and V-HA-10. -/
theorem test_encode :
    encode (.shpAx 0 8192#16) = 0x30002000#32 ∧ encode (.chSet 4 1500#16) = 0x200405DC#32 ∧
    encode (.rdm 8 64) = 0x04080040#32 := by decide

/-- The pseudo-instructions assemble to the words of P1 (steps 1 to 3), P3 (steps 1 and 2), P4 (step 16) and V-SHP-30. -/
theorem test_pseudo :
    (Pseudo.crcBuf [0x31#8, 0x32#8]).words = [0x10000000#32, 0x11000031#32, 0x11000032#32] ∧
    (Pseudo.cfgAx 0 819#16 4915#16).words = [0x03100333#32, 0x03141333#32] ∧
    (Pseudo.evtAck 6#16).words = [0x03370006#32] ∧ (Pseudo.btnOn 4).words = [0x21040001#32] ∧
    (Pseudo.rxLoad [0xC8#8]).words = [0x23000000#32, 0x240000C8#32] := by decide

/-! ### One step of each command -/

/-- The command answers this status and data, as its only output, and leaves a state with this property. -/
def answers (i : Instr) (s : State) (st : Status) (d : Word) (then' : State → Bool := fun _ => true) : Bool :=
  match exec i s with
  | .next t => decide (t.trace = s.trace ++ [.response st d]) && then' t
  | .fault _ => false
  | .refused _ => false

/-- An input leaves a state with this property and adds these outputs. -/
def gives (inp : Input) (s : State) (outs : List Output) (then' : State → Bool := fun _ => true) : Bool :=
  match runInput inp s with
  | .next t => decide (t.trace = s.trace ++ outs) && then' t
  | .fault _ => false
  | .refused _ => false

/-- The frame `F_N` of the spec's Part B. -/
def frameN : List Byte :=
  [0xC8#8, 0x18#8, 0x16#8, 0x00#8, 0x04#8, 0x20#8, 0x00#8, 0x01#8, 0x08#8, 0x40#8, 0x00#8, 0x02#8, 0x10#8] ++
  [0x80#8, 0x00#8, 0x04#8, 0x20#8, 0x00#8, 0x01#8, 0x08#8, 0x40#8, 0x00#8, 0x02#8, 0x10#8, 0x80#8, 0xAE#8]

/-- The frame `F_M` of V-COD-11, of the vector `M`. -/
def frameM : List Byte :=
  [0xC8#8, 0x18#8, 0x16#8, 0xE8#8, 0x83#8, 0x3E#8, 0x2B#8, 0xC0#8, 0x37#8, 0xF1#8, 0x5F#8, 0x00#8, 0x90#8] ++
  [0xBB#8, 0x00#8, 0xF8#8, 0x7F#8, 0x00#8, 0x04#8, 0x40#8, 0x00#8, 0x04#8, 0x40#8, 0x00#8, 0x04#8, 0x36#8]

/-- The vector `M` of V-COD-11. -/
def vectorM : ChanVec :=
  #v[1000#11, 2000#11, 172#11, 992#11, 1811#11, 191#11, 1024#11, 1500#11,
     0#11, 2047#11, 1#11, 2#11, 4#11, 8#11, 16#11, 32#11]

/-- The reset state with these bytes received. -/
def received (bs : List Byte) : State :=
  { State.reset with rxbuf := Memory.ofBytes bs, rxlen := BitVec.ofNat 7 bs.length }

/-- The reset state in this scheduler state with this timer. -/
def loop (st : SState) (n : BitVec 20) : State := { State.reset with sstate := st, tmr := n }

/-- V-HA-1. -/
theorem test_nop : answers .nop State.reset .ok 0#32 = true := by decide

/-- R54: what was configured is back at its reset value. -/
theorem test_reset :
    answers .reset { State.reset with rate := 1#16, sstate := .exitFatal, evt := 31#5 } .ok 0#32
      (fun t => decide (t.rate = 250#16 ∧ t.sstate = .stopped ∧ t.evt = 0#5)) = true := by decide

/-- V-HA-2, V-HA-3 and V-HA-24. -/
theorem test_rd : answers (.rd 0x1A) State.reset .ok 250#32 = true ∧
    answers (.rd 0x36) State.reset .ok 4000#32 = true ∧ answers (.rd 0x27) State.reset .badIdx 0#32 = true := by decide

/-- `SFLAGS` has its five bits in the order of `40_host_access.md`: `WARN` is bit 4, `MBX_DIRTY` bit 0 (P4 step 15, P5 step
15), and `SHP_Y` reads zero-extended (V-SHP-22). -/
theorem test_rd_composed :
    answers (.rd 0x31) { State.reset with failCnt := 12#16 } .ok 16#32 = true ∧
    answers (.rd 0x31) { State.reset with fatalPend := true, tickPend := true, mbxDirty := true } .ok 11#32 = true ∧
    answers (.rd 0x21) { State.reset with shpY := 0xE8BD#16 } .ok 59581#32 = true := by decide

/-- V-HA-13, V-HA-14, V-HA-15, V-HA-16: the two clamps, from above and from below. -/
theorem test_wr_clamps :
    answers (.wr 0x10 5000#16) State.reset .ok 0#32 (fun t => decide (t.dz[0] = 4096#13)) = true ∧
    answers (.wr 0x10 0xFFFF#16) State.reset .ok 0#32 (fun t => decide (t.dz[0] = 0#13)) = true ∧
    answers (.wr 0x16 0x4001#16) State.reset .ok 0#32 (fun t => decide (t.expo[2] = 16384#15)) = true ∧
    answers (.wr 0x16 0x8000#16) State.reset .ok 0#32 (fun t => decide (t.expo[2] = 0#15)) = true := by decide

/-- V-HA-18, V-HA-23, V-HA-24, and P4 step 16: `WR EVT` clears the bits written as 1. -/
theorem test_wr_special :
    answers (.wr 0x1A 0#16) State.reset .ok 0#32 (fun t => decide (t.rate = 1#16)) = true ∧
    answers (.wr 0x20 1#16) State.reset .rdOnly 0#32 = true ∧ answers (.wr 0x50 1#16) State.reset .badIdx 0#32 = true ∧
    answers (.wr 0x37 6#16) { State.reset with evt := 0x0E#5 } .ok 0#32 (fun t => decide (t.evt = 0x08#5)) = true := by
  decide

/-- V-HA-7, V-HA-9, V-HA-10. -/
theorem test_rdm :
    answers (.rdm 3 15) State.reset .ok 1024#32 = true ∧ answers (.rdm 7 255) State.reset .ok 249#32 = true ∧
    answers (.rdm 8 32) State.reset .ok 2048#32 = true := by decide

/-- V-HA-11: one element beyond each space, and a space that does not exist. -/
theorem test_rdm_beyond :
    answers (.rdm 8 65) State.reset .badIdx 0#32 = true ∧ answers (.rdm 0 16) State.reset .badIdx 0#32 = true ∧
    answers (.rdm 4 26) State.reset .badIdx 0#32 = true ∧ answers (.rdm 6 64) State.reset .badIdx 0#32 = true ∧
    answers (.rdm 9 0) State.reset .badIdx 0#32 = true := by decide

/-- R64. -/
theorem test_crcInit :
    answers .crcInit { State.reset with crc := 0x5A#8 } .ok 0#32 (fun t => decide (t.crc = 0x00#8)) = true := by decide

/-- P1 steps 2 and 3. -/
theorem test_crcUpd : answers (.crcUpd 0x31#8) State.reset .ok 0x23#32 = true ∧
    answers (.crcUpd 0x32#8) { State.reset with crc := 0x23#8 } .ok 0x87#32 = true := by decide

/-- V-CRC-7, the check value of "123456789". -/
theorem test_crc8 :
    crc8 [0x31#8, 0x32#8, 0x33#8, 0x34#8, 0x35#8, 0x36#8, 0x37#8, 0x38#8, 0x39#8] = 0xBC#8 := by decide

/-- V-COD-24, the clamp, and V-HA-27. -/
theorem test_chSet :
    answers (.chSet 6 2048#16) State.reset .ok 2047#32 (fun t => decide (t.ch[6] = 2047#11 ∧ t.ch[5] = 1024#11)) = true ∧
    answers (.chSet 16 0xFFFF#16) State.reset .badIdx 0#32 = true := by decide

/-- V-SHP-30, V-SHP-31, V-HA-27. -/
theorem test_chBtn :
    answers (.chBtn 4 true) State.reset .ok 2047#32 (fun t => decide (t.ch[4] = 2047#11)) = true ∧
    answers (.chBtn 4 false) State.reset .ok 0#32 (fun t => decide (t.ch[4] = 0#11)) = true ∧
    answers (.chBtn 16 true) State.reset .badIdx 0#32 = true := by decide

/-- V-COD-11, the whole frame in `EBUF`. -/
theorem test_enc :
    answers .enc { State.reset with ch := vectorM } .ok 0x36#32
      (fun t => decide (t.ebuf.readBytes 0 26 = frameM) && t.evalid) = true := by decide +kernel

/-- V-COD-27, the last sentence, and R79: the bytes stay. -/
theorem test_rxClr :
    answers .rxClr { received [0xC8#8, 0x02#8] with rxovf := true } .ok 0#32
      (fun t => decide (t.rxlen = 0#7 ∧ t.rxovf = false ∧ t.rxbuf.read 1 = 0x02#8)) = true := by decide

/-- P2 steps 21 and 22: the data is the length after the store, and a decoded frame is no longer valid. -/
theorem test_rxPush :
    answers (.rxPush 0x18#8) { received [0xC8#8] with dvalid := true } .ok 2#32
      (fun t => decide (t.rxbuf.read 0 = 0xC8#8 ∧ t.rxbuf.read 1 = 0x18#8 ∧ t.dvalid = false)) = true := by decide

/-- V-COD-27: the 65th byte is dropped. -/
theorem test_rxPush_full :
    answers (.rxPush 0xEE#8) { State.reset with rxlen := 64#7 } .ok 64#32
      (fun t => decide (t.rxovf = true ∧ t.rxlen = 64#7 ∧ t.rxbuf = [])) = true := by decide

/-- V-COD-19, the second frame: type 0x14, ten payload bytes; and V-COD-26. -/
theorem test_dec :
    answers .dec (received [0xC8#8, 0x0C#8, 0x14#8, 0x40#8, 0x41#8, 0x64#8, 0xF6#8, 0x01#8, 0x02#8, 0x03#8, 0x50#8,
      0x63#8, 0x05#8, 0x88#8]) .ok 0#32 (fun t => decide (t.rtype = 0x14#8 ∧ t.rplen = 10#6 ∧ t.dvalid = true)) = true ∧
    answers .dec State.reset .ok 1#32 (fun t => decide (t.derr = .short ∧ t.dvalid = false)) = true := by decide +kernel

/-- V-COD-14, V-COD-15, V-COD-16, V-COD-17: the other failures. -/
theorem test_dec_fails :
    answers .dec (received (frameN.set 0 0xC9#8)) .ok 2#32 = true ∧
    answers .dec (received [0xC8#8, 0x01#8, 0x16#8, 0x00#8]) .ok 3#32 = true ∧
    answers .dec (received (frameN.take 25)) .ok 4#32 = true ∧
    answers .dec (received (frameN.set 25 0xAF#8)) .ok 5#32 = true := by decide +kernel

/-- P2 steps 50 and 51, and V-COD-25. -/
theorem test_unpk :
    answers .unpk { received frameM with dvalid := true, rplen := 22#6 } .ok 0#32
      (fun t => decide (t.uch = vectorM)) = true ∧
    answers .unpk State.reset .refused 0#32 = true := by decide +kernel

/-- V-SHP-22: a negative sample with deadzone and expo. -/
theorem test_shpAx :
    answers (.shpAx 0 0xE000#16)
      { State.reset with dz := State.reset.dz.set 0 819#13, expo := State.reset.expo.set 0 4915#15 } .ok 0x028BE8BD#32
      (fun t => decide (t.shpY = 0xE8BD#16 ∧ t.ch[0] = 651#11)) = true := by decide +kernel

/-- V-SHP-25: −1 and 8192 on an axis at its reset profile; V-HA-27. -/
theorem test_shpAx_reset :
    answers (.shpAx 1 0xFFFF#16) State.reset .ok 0x03FFFFFF#32 = true ∧
    answers (.shpAx 1 8192#16) State.reset .ok 0x05FF2000#32 = true ∧
    answers (.shpAx 4 0#16) State.reset .badIdx 0#32 = true := by decide +kernel

/-- V-SHP-27. -/
theorem test_shpTrg :
    answers (.shpTrg 5 8192#16) { State.reset with tdz := 1638#13 } .ok 0x038E1C72#32
      (fun t => decide (t.ch[5] = 910#11)) = true := by decide +kernel

/-- V-SHP-29 and V-HA-27. -/
theorem test_shpTrg_limits :
    answers (.shpTrg 5 0xFFFB#16) State.reset .ok 0x00000000#32 = true ∧
    answers (.shpTrg 15 20000#16) State.reset .ok 0x07FF4000#32 = true ∧
    answers (.shpTrg 16 0#16) State.reset .badIdx 0#32 = true := by decide +kernel

/-- P3 step 16: channel 1 is reversed, channel 0 is not. -/
theorem test_schPub :
    answers .schPub { State.reset with rev := 0x0002#16, ch := State.reset.ch.set 1 1396#11 } .ok 0#32
      (fun t => decide (t.mbx[1] = 651#11 ∧ t.mbx[0] = 1024#11 ∧ t.mbxDirty = true)) = true := by decide

/-- V-SCH-2. -/
theorem test_schStart :
    answers .schStart State.reset .ok 0#32 (fun t => decide (t.sstate = .wait ∧ t.tmr = 3999#20)) = true ∧
    answers .schStart (loop .wait 3999#20) .refused 0#32 = true := by decide

/-- V-SCH-5: the event comes before the response; and the latch of V-SCH-8. -/
theorem test_schCancel :
    gives (.command 0x42000000#32) State.reset [.event .exitCancel, .response .ok 3#32]
      (fun t => decide (t.evt = 0x08#5 ∧ t.sstate = .exitCancel)) = true ∧
    answers .schCancel (loop .send 7#20) .ok 2#32 (fun t => t.cancelPend) = true := by decide

/-- V-SCH-6 and the latch of V-SCH-8. -/
theorem test_schPclose :
    gives (.command 0x43000000#32) State.reset [.event .exitFatal, .response .ok 4#32]
      (fun t => decide (t.evt = 0x10#5 ∧ t.sstate = .exitFatal)) = true ∧
    answers .schPclose (loop .send 7#20) .ok 2#32 (fun t => t.fatalPend) = true := by decide

/-- V-SCH-3, the 4000th pulse. -/
theorem test_tb :
    gives .tb (loop .wait 0#20) [.txReq frameN] (fun t => decide (t.sstate = .send ∧ t.tmr = 3999#20)) = true := by
  decide +kernel

/-- V-SCH-8, the result: the failure is counted, then fatal wins over cancel. -/
theorem test_txr_fail :
    gives (.txr false) { loop .send 0#20 with cancelPend := true, fatalPend := true }
      [.event .failLow, .event .exitFatal]
      (fun t => decide (t.sstate = .exitFatal ∧ t.failCnt = 1#16 ∧ t.evt = 0x12#5 ∧ t.cancelPend = false)) = true := by
  decide

/-- V-SCH-11, the third success. -/
theorem test_txr_ok :
    gives (.txr true) { loop .send 0#20 with statIvl := 3#16, statCnt := 2#16, totalSent := 2#32, ien := 1#5 }
      [.event .status] (fun t => decide (t.totalSent = 3#32 ∧ t.statCnt = 0#16 ∧ irq t = true)) = true := by decide

/-- The word placed by `withFetchWord` is the command the next step runs (log entry 4). -/
theorem test_withFetchWord :
    step (State.reset.withFetchWord 32 0x10000000) = exec .crcInit State.reset := rfl

/-- The byte buffers are in canonical form at reset. -/
theorem test_reset_memory_wf :
    State.reset.ebuf.wf = true ∧ State.reset.txbuf.wf = true ∧ State.reset.rxbuf.wf = true := by decide

/-! ### Witnesses: values that meet a statement's hypotheses, at the ends of each clause's range -/

/-- A state in the middle of everything: sending, with a decoded frame, an encoded frame and all three latches set. -/
def busy : State :=
  { received [0xC8#8, 0x02#8, 0x14#8, 0xBA#8] with
    dvalid := true, rtype := 0x14#8, evalid := true, sstate := .send, tickPend := true, cancelPend := true,
    fatalPend := true, ebuf := Memory.ofBytes frameN, txbuf := Memory.ofBytes frameN, tmr := 999999#20 }

/-- The same state with a failed transmission and a command presented at the present instant. -/
def busyNow : State := { busy with inputs := [⟨false, some false, false, some 0x25000000#32⟩] }

theorem witness_DecodeInvertsEncode :
    (Instr.rd 255).wellFormed = true ∧ (Instr.wr 0 0xFFFF#16).wellFormed = true ∧
    (Instr.rdm 255 65535).wellFormed = true ∧ (Instr.chBtn 255 true).wellFormed = true ∧
    Instr.schPclose.wellFormed = true := by decide

theorem witness_EncodeInvertsDecode :
    decode 0x04FFFFFF#32 = .command (.rdm 255 65535) ∧ decode 0x240000FF#32 = .command (.rxPush 0xFF#8) := by decide

/-- The ends of the five ranges of undefined opcodes and of the defined ones beside them; a reserved bit at each end of its
mask; two immediates alike in their low five bits only. -/
theorem witness_IllegalAndReservedWords :
    opcodeMasks.lookup 0x05#8 = none ∧ opcodeMasks.lookup 0x0F#8 = none ∧ opcodeMasks.lookup 0x12#8 = none ∧
    opcodeMasks.lookup 0x1F#8 = none ∧ opcodeMasks.lookup 0x27#8 = none ∧ opcodeMasks.lookup 0x2F#8 = none ∧
    opcodeMasks.lookup 0x32#8 = none ∧ opcodeMasks.lookup 0x3F#8 = none ∧ opcodeMasks.lookup 0x44#8 = none ∧
    opcodeMasks.lookup 0xFF#8 = none ∧ opcodeMasks.lookup 0x04#8 = some 0#32 ∧
    opcodeMasks.lookup 0x11#8 = some 0x00FFFF00#32 ∧ opcodeMasks.lookup 0x26#8 = some 0x00FFFFFF#32 ∧
    opcodeMasks.lookup 0x21#8 = some 0x0000FFFE#32 ∧ opcodeMasks.lookup 0x43#8 = some 0x00FFFFFF#32 ∧
    0x43800000#32 &&& 0x00FFFFFF#32 ≠ 0#32 ∧ 0x21040002#32 &&& 0x0000FFFE#32 ≠ 0#32 ∧
    (0xFFE5#16).extractLsb' 0 5 = (0x0005#16).extractLsb' 0 5 := by decide

theorem witness_StepRunsDecodedCommand :
    takeInput [Arrival.ofCommand 0x10000000#32] = some (.command 0x10000000#32, []) ∧
    decode 0x10000000#32 = .command .crcInit ∧ takeInput [Arrival.ofHreset] = some (.hreset, [⟨false, none, false, none⟩]) ∧
    takeInput State.reset.inputs = none ∧ takeInput [⟨false, none, false, none⟩] = none ∧
    decode (BitVec.ofNat 32 (0x43000000 % 2 ^ 32)) = .command .schPclose := by decide

/-- A word that fails, and the three inputs that are no command. -/
theorem witness_EveryStepCompletes :
    gives (.command 0xFFFFFFFF#32) busy [.response .illegal 0#32] = true ∧ (∀ w, Input.hreset ≠ .command w) ∧
    (∀ w, Input.tb ≠ .command w) ∧ ∀ w, Input.txr true ≠ .command w :=
  ⟨by decide, nofun, nofun, nofun⟩

/-- A state for each of the three clauses. -/
theorem witness_SimultaneousInputsInOrder :
    { busy with inputs := [⟨true, some false, true, some 0x25000000#32⟩] }.inputs =
      (⟨true, some false, true, some 0x25000000#32⟩ : Arrival) :: [] ∧
    ({ loop .send 0#20 with inputs := [⟨false, some true, true, none⟩] }.inputs =
        (⟨false, some true, true, none⟩ : Arrival) :: [] ∧
      (loop .send 0#20).tmr = 0#20 ∧ (loop .send 0#20).fatalPend = false ∧ (loop .send 0#20).cancelPend = false ∧
      (loop .send 0#20).tickPend = false) ∧
    ({ loop .wait 0#20 with inputs := [⟨false, none, true, some 0x40000000#32⟩] }.inputs =
        (⟨false, none, true, some 0x40000000#32⟩ : Arrival) :: [] ∧ (loop .wait 0#20).tmr = 0#20) := by decide

theorem busyNow_meets_Inv : Inv busyNow where
  ebuf_wf := by decide +kernel
  ebuf_within := by decide +kernel
  txbuf_wf := by decide +kernel
  txbuf_within := by decide +kernel
  rxbuf_wf := by decide
  rxbuf_within := by decide
  dz_le := by decide
  expo_le := by decide
  tdz_le := by decide
  rate_pos := by decide
  shpY_ge := by decide
  shpY_le := by decide
  rxlen_le := by decide
  rxovf_full := by decide
  rplen_le := by decide
  derr_clears := by decide
  decoded := fun _ => by constructor <;> decide +kernel
  encoded := fun _ => ⟨Vector.replicate 16 1024#11, by decide +kernel⟩
  sent := .inr (by decide +kernel)
  pend_only_in_send := by decide
  tmr_lt := by decide
  statCnt_le := by decide

/-- A state that meets the invariant with a decoded and an encoded frame, and steps. -/
theorem witness_StepKeepsInv : Inv busyNow ∧ ∃ t, step busyNow = .next t := ⟨busyNow_meets_Inv, _, rfl⟩

theorem witness_HresetGivesResetValues :
    takeInput { busy with inputs := [⟨true, none, true, none⟩] }.inputs = some (.hreset, [⟨false, none, true, none⟩]) := by
  decide

/-- The hypothesis of the clauses on reserved bits of the commands of formats N, X and I8, at the least and the greatest
reserved bit. -/
theorem witness_reserved_bits :
    (0x000001#24 ≠ 0#24 ∧ 0x800000#24 ≠ 0#24 ∧ 0x0001#16 ≠ 0#16 ∧ 0x8000#16 ≠ 0#16) ∧
    (decode (0x00#8 ++ 0x000001#24) = .reserved ∧ decode (0x01#8 ++ 0x800000#24) = .reserved) ∧
    (decode (0x02#8 ++ 0x10#8 ++ 0x0001#16) = .reserved ∧ decode (0x02#8 ++ 0x10#8 ++ 0x8000#16) = .reserved) ∧
    (decode (0x11#8 ++ 0x0001#16 ++ 0xFF#8) = .reserved ∧ decode (0x24#8 ++ 0x8000#16 ++ 0xFF#8) = .reserved) := by decide

theorem witness_NopDoesNothing : (0x000001#24) ≠ 0#24 ∧ decode (0x00#8 ++ 0x000001#24) = .reserved := by decide

/-- For the last clause both terminal states, with a start (refused), a close and a word that is no command. -/
theorem witness_ResetCommandResets :
    (0x800000#24) ≠ 0#24 ∧ decode (0x01#8 ++ 0x800000#24) = .reserved ∧
    gives (.command 0x41000000#32) (loop .exitCancel 0#20) [.response .refused 0#32] = true ∧
    gives (.command 0x43000000#32) (loop .exitFatal 0#20) [.response .ok 4#32] = true ∧
    gives (.command 0x01000001#32) (loop .exitFatal 0#20) [.response .rsvd 0#32] = true := by decide

/-- The first and the last register, the composed ones, the enumerated ones, and the numbers beside each range. -/
theorem witness_RdReadsRegister :
    (0x10, 0) ∈ registerValues busy ∧ (0x37, 0) ∈ registerValues busy ∧ (0x23, 3) ∈ registerValues busy ∧
    (0x31, 14) ∈ registerValues busy ∧ (0x30, 2) ∈ registerValues busy ∧
    (0x24, 5) ∈ registerValues { busy with derr := .crc } ∧ registerExists 0x0F = false ∧ registerExists 0x1E = false ∧
    registerExists 0x1F = false ∧ registerExists 0x27 = false ∧ registerExists 0x2F = false ∧
    registerExists 0x38 = false ∧ registerExists 0xFF = false ∧ registerExists 0x1D = true ∧
    registerExists 0x20 = true ∧ registerExists 0x26 = true ∧ registerExists 0x30 = true ∧
    (0x0001#16) ≠ 0#16 := by decide

/-- A nonzero rate, numbers that name no register, and the ends of the read-only ranges beside writable ones. -/
theorem witness_WrStoresLegalValue :
    (1#16) ≠ 0#16 ∧ (0xFFFF#16) ≠ 0#16 ∧ registerExists 0x0F = false ∧ registerExists 0x38 = false ∧
    registerReadOnly 0x20 = true ∧ registerReadOnly 0x26 = true ∧ registerReadOnly 0x30 = true ∧
    registerReadOnly 0x36 = true ∧ registerReadOnly 0x37 = false ∧ registerReadOnly 0x1D = false := by decide

/-- The last element of each space of bytes and of the cube table, and the first beyond every space. -/
theorem witness_RdmReadsElement :
    (25 < 26 ∧ 63 < 64 ∧ 64 ≤ 64) ∧ spaceSizes.getD 0 0 ≤ 16 ∧ spaceSizes.getD 1 0 ≤ 16 ∧ spaceSizes.getD 2 0 ≤ 16 ∧
    spaceSizes.getD 3 0 ≤ 16 ∧ spaceSizes.getD 4 0 ≤ 26 ∧ spaceSizes.getD 5 0 ≤ 26 ∧ spaceSizes.getD 6 0 ≤ 64 ∧
    spaceSizes.getD 7 0 ≤ 256 ∧ spaceSizes.getD 8 0 ≤ 65 ∧ 8 < 9 ∧ ¬ spaceSizes.getD 8 0 ≤ 64 := by decide

theorem witness_CrcInitClears : (0x000001#24) ≠ 0#24 ∧ decode (0x10#8 ++ 0x000001#24) = .reserved := by decide

/-- For the last clause the `ENC` and `DEC` the rule names, during a computation. -/
theorem witness_CrcUpdSteps :
    (0x8000#16) ≠ 0#16 ∧ decode (0x11#8 ++ 0x8000#16 ++ 0x00#8) = .reserved ∧ State.reset.crc = 0x00#8 ∧
    gives (.command 0x22000000#32) { State.reset with crc := 0x5A#8 } [.response .ok 174#32] = true ∧
    gives (.command 0x25000000#32) { State.reset with crc := 0x5A#8 } [.response .ok 1#32] = true ∧
    (0x22000000#32).extractLsb' 24 8 ≠ 0x11#8 ∧ (0x25000000#32).extractLsb' 24 8 ≠ 0x11#8 := by decide +kernel

/-- A flip of the first byte's top bit and of the CRC byte's low bit, in lists of one byte and of none. -/
theorem witness_CrcDetectsEverySingleBitChange :
    (0 ≤ [0x31#8].length ∧ 7 < 8) ∧ (1 ≤ [0x31#8].length ∧ 0 < 8) ∧ 0 ≤ ([] : List Byte).length ∧
    ([0x31#8] ++ [crc8 [0x31#8]]).modify 0 (fun b => b ^^^ (1#8 <<< 7)) = [0xB1#8, 0x23#8] := by decide

theorem witness_PackPlacesEveryBit :
    10 < 11 ∧ ((pack vectorM).getD ((11 * 9 + 10) / 8) 0#8).getLsbD ((11 * 9 + 10) % 8) = true := by decide +kernel

/-- A payload of exactly 22 bytes and one of 23. -/
theorem witness_PackAndUnpackAreInverse :
    22 ≤ ((frameM.drop 3).take 22).length ∧ 22 ≤ (frameM.drop 3).length := by decide

/-- Each clause at the ends of its range: lengths 0 and 3, 4 with a wrong sync byte, length bytes 0, 1, 63 and 255, a frame one
byte short, payloads of 0 and of 60 bytes with a wrong and with the right CRC. -/
theorem witness_FrameCheckInOrder :
    ([] : List Byte).length < 4 ∧ [0xC8#8, 0x18#8, 0x16#8].length < 4 ∧
    (4 ≤ [0xC9#8, 0x02#8, 0x14#8, 0xBA#8].length ∧ [0xC9#8, 0x02#8, 0x14#8, 0xBA#8].getD 0 0#8 ≠ 0xC8#8) ∧
    ((0x00#8).toNat < 2 ∧ (0x01#8).toNat < 2 ∧ 62 < (0x3F#8).toNat ∧ 62 < (0xFF#8).toNat) ∧
    (2 ≤ (0x03#8).toNat ∧ (0x03#8).toNat ≤ 62 ∧ 2 ≤ [0x14#8, 0x00#8].length ∧ [0x14#8, 0x00#8].length < (0x03#8).toNat) ∧
    ((0x02#8).toNat = ([] : List Byte).length + 2 ∧ (0x02#8).toNat ≤ 62 ∧ crc8 [0x02#8, 0x14#8] ≠ 0xBB#8 ∧
      crc8 [0x02#8, 0x14#8] = 0xBA#8) ∧
    ((0x3E#8).toNat = (List.replicate 60 0x00#8).length + 2 ∧ (0x3E#8).toNat ≤ 62) := by decide

/-- The ends of the bits and of the bytes after the length byte, and a vector for each clause that asks something of the CRC of
a shortened prefix. -/
theorem witness_SingleBitFlipOfFrameIsCaught :
    (0 < 8 ∧ 7 < 8) ∧ (2 ≤ 2 ∧ 2 < 26) ∧ (2 ≤ 25 ∧ 25 < 26) ∧
    crc8 (0x10#8 :: ((frame vectorM).drop 2).take 15) ≠ (frame vectorM).getD 17 0#8 ∧
    crc8 (0x08#8 :: ((frame vectorM).drop 2).take 7) ≠ (frame vectorM).getD 9 0#8 := by decide +kernel

theorem witness_ChSetStoresClamped : 15 < 16 ∧ answers (.chSet 15 0#16) State.reset .ok 0#32 = true := by decide

theorem witness_EncBuildsFrame : (0x000001#24) ≠ 0#24 ∧ 26 ≤ 26 := by decide

theorem witness_RxClrEmptiesBuffer : (0x800000#24) ≠ 0#24 ∧ decode (0x23#8 ++ 0x800000#24) = .reserved := by decide

/-- An empty buffer, one with one place left, and a full one, each in canonical form. -/
theorem witness_RxPushStoresOrOverflows :
    (0x0001#16) ≠ 0#16 ∧ (State.reset.rxbuf.wf = true ∧ State.reset.rxlen.toNat < 64) ∧
    ((received (List.replicate 63 0x01#8)).rxbuf.wf = true ∧ (received (List.replicate 63 0x01#8)).rxlen.toNat < 64) ∧
    (received (List.replicate 64 0x01#8)).rxlen.toNat = 64 := by decide +kernel

/-- A `DEC` that runs twice, and an empty buffer. -/
theorem witness_DecRecordsFrameCheck :
    (0x000001#24) ≠ 0#24 ∧ (∃ t u, exec .dec busy = .next t ∧ exec .dec t = .next u) ∧ State.reset.rxlen = 0#7 :=
  ⟨by decide, ⟨_, _, rfl, rfl⟩, rfl⟩

/-- The least payload `UNPK` takes, the greatest it refuses, and nothing decoded. -/
theorem witness_UnpkUnpacksDecodedFrame :
    (0x000001#24) ≠ 0#24 ∧
    ({ busy with rplen := 22#6 }.dvalid = true ∧ 22 ≤ { busy with rplen := 22#6 }.rplen.toNat) ∧
    { busy with rplen := 21#6 }.rplen.toNat < 22 ∧ State.reset.dvalid = false := by decide

/-- The greatest deadzone, with magnitudes at the deadzone, just above it and at full travel. -/
theorem witness_DeadzoneRescaleLaws :
    4096 ≤ 4096 ∧ 4096 < 4097 ∧ 4097 ≤ 16384 ∧ dzscale 4096 4096 = 0 ∧ dzscale 4097 4096 = 1 ∧
    dzscale 16384 4096 = 16384 ∧ dzscale 16383 4096 = 16382 := by decide

/-- Knots 0, 63 and 64, and magnitudes beside a knot and below full travel (V-FN-4). -/
theorem witness_CubeLaws :
    (0 ≤ 64 ∧ 64 ≤ 64 ∧ 63 < 64 ∧ 16383 < 16384 ∧ 16384 ≤ 16384) ∧ cube 255 = 0 ∧ cube 256 = 0 ∧ cube 8300 = 2131 ∧
    cube 16383 = 16381 ∧ cube 16384 = 16384 := by decide

/-- The ends of the exponent, and a tie (V-FN-5, V-FN-6). -/
theorem witness_BlendLaws :
    (16384 ≤ 16384 ∧ 2048 ≤ 8192 ∧ 0 ≤ 1) ∧ blend 8192 2048 16384 = 2048 ∧ blend 8192 2048 0 = 8192 ∧
    blend 1 0 8192 = 1 ∧ blend 1 0 8193 = 0 := by decide

/-- The greatest legal profile, with a sample at the edge of the deadzone on either side; and V-SHP-5 and V-SHP-8, an expo
strictly between the ends on either side of zero. -/
theorem witness_AxisCurveLaws :
    4096 ≤ 4096 ∧ 16384 ≤ 16384 ∧ (min (max (4096#16).toInt (-16384)) 16384).natAbs ≤ 4096 ∧
    (min (max (0xF000#16).toInt (-16384)) 16384).natAbs ≤ 4096 ∧ shapeAxis 4096#16 4096 16384 = 0 ∧
    shapeAxis 0xC000#16 4096 16384 = -16384 ∧ shapeAxis 8192#16 819 4915 = 5955 ∧
    shapeAxis 0xE000#16 819 4915 = -5955 := by decide

theorem witness_AxisCurveIsMonotone :
    4096 ≤ 4096 ∧ 16384 ≤ 16384 ∧ (0x8000#16).toInt ≤ (0x7FFF#16).toInt ∧ (0xFFFF#16).toInt ≤ (0#16).toInt := by decide

/-- The ends of both ranges (V-FN-7, V-FN-8). -/
theorem witness_ChannelMappingLaws :
    ((-16384 : Int) ≤ -16384 ∧ (-16384 : Int) ≤ 16384) ∧ mapS (-9) = 1023 ∧ mapS 16375 = 2046 ∧ mapS 16376 = 2047 ∧
    mapU 4 = 0 ∧ mapU 5 = 1 ∧ mapU 16379 = 2046 ∧ mapU 16380 = 2047 := by decide

/-- The first axis number refused, the last one taken, a legal profile at its greatest, and both ends of the shaped value. -/
theorem witness_ShpAxShapesAxis :
    3 < 4 ∧ answers (.shpAx 3 0#16) State.reset .ok 0x04000000#32 = true ∧ (4096#13).toNat ≤ 4096 ∧
    (16384#15).toNat ≤ 16384 ∧ (-16384 : Int) ≤ -16384 ∧ shapeAxis (tc16 (-16384)) 0 0 = -16384 := by decide

theorem witness_ShpTrgShapesTrigger :
    15 < 16 ∧ answers (.shpTrg 15 16384#16) State.reset .ok 0x07FF4000#32 = true ∧ 4096 ≤ 4096 := by decide

theorem witness_ChBtnWritesButton :
    1 < (2#16).toNat ∧ 15 < 16 ∧ answers (.chBtn 15 true) State.reset .ok 2047#32 = true ∧
    decode (0x21#8 ++ 0x04#8 ++ 2#16) = .reserved := by decide

theorem witness_SchPubPublishes : (0x010000#24) ≠ 0#24 ∧ decode (0x40#8 ++ 0x010000#24) = .reserved := by decide

/-- `STOPPED`, and each state from which the start is refused. -/
theorem witness_SchStartStartsLoop :
    (0x000001#24) ≠ 0#24 ∧ State.reset.sstate = .stopped ∧ (loop .wait 0#20).sstate ≠ .stopped ∧
    (loop .send 0#20).sstate ≠ .stopped ∧ (loop .exitCancel 0#20).sstate ≠ .stopped ∧
    (loop .exitFatal 0#20).sstate ≠ .stopped := by decide

/-- Each of the five states. -/
theorem witness_SchCancelCancels :
    (0x000001#24) ≠ 0#24 ∧ State.reset.sstate = .stopped ∧ (loop .wait 0#20).sstate = .wait ∧
    (loop .send 0#20).sstate = .send ∧ (loop .exitCancel 0#20).sstate = .exitCancel ∧
    (loop .exitFatal 0#20).sstate = .exitFatal := by decide

/-- Each of the five states. -/
theorem witness_SchPcloseCloses :
    (0x800000#24) ≠ 0#24 ∧ State.reset.sstate = .stopped ∧ (loop .wait 0#20).sstate = .wait ∧
    (loop .send 0#20).sstate = .send ∧ (loop .exitCancel 0#20).sstate = .exitCancel ∧
    (loop .exitFatal 0#20).sstate = .exitFatal := by decide

/-- The timer at 0 and at 1, in the states that count, and a state that does not. -/
theorem witness_TimebaseStep :
    State.reset.sstate = .stopped ∧ ((loop .wait 1#20).sstate = .wait ∧ 0 < (loop .wait 1#20).tmr.toNat) ∧
    ((loop .send 1#20).sstate = .send ∧ 0 < (loop .send 1#20).tmr.toNat) ∧
    ((loop .wait 0#20).sstate = .wait ∧ (loop .wait 0#20).tmr.toNat = 0) ∧
    ((loop .send 0#20).sstate = .send ∧ (loop .send 0#20).tmr.toNat = 0) := by decide

/-- The summary disabled, due exactly, and one success before it is due; and a state that ignores the result. -/
theorem witness_TransmitSuccess :
    (loop .wait 0#20).sstate ≠ .send ∧
    ({ loop .send 0#20 with statIvl := 0#16 }.sstate = .send ∧ { loop .send 0#20 with statIvl := 0#16 }.statIvl = 0#16) ∧
    ({ loop .send 0#20 with statCnt := 249#16 }.statIvl ≠ 0#16 ∧
      { loop .send 0#20 with statCnt := 249#16 }.statIvl.toNat ≤ { loop .send 0#20 with statCnt := 249#16 }.statCnt.toNat + 1) ∧
    { loop .send 0#20 with statCnt := 248#16 }.statCnt.toNat + 1 < { loop .send 0#20 with statCnt := 248#16 }.statIvl.toNat := by
  decide

/-- The failure that reaches the threshold, the one before it, and the saturated counter; and a state that ignores the
result. -/
theorem witness_TransmitFailure :
    (loop .exitFatal 0#20).sstate ≠ .send ∧
    (loop .send 0#20).sstate = .send ∧
    gives (.txr false) { loop .send 0#20 with failCnt := 9#16 } [.event .failWarn] (fun t => decide (t.failCnt = 10#16)) = true ∧
    gives (.txr false) { loop .send 0#20 with failCnt := 8#16 } [.event .failLow] (fun t => decide (t.failCnt = 9#16)) = true ∧
    gives (.txr false) { loop .send 0#20 with failCnt := 65535#16 } [.event .failWarn]
      (fun t => decide (t.failCnt = 65535#16)) = true := by decide

/-- One state for each priority. -/
theorem witness_WaitPointPriority :
    busy.fatalPend = true ∧
    ({ busy with fatalPend := false }.fatalPend = false ∧ { busy with fatalPend := false }.cancelPend = true) ∧
    ({ loop .send 0#20 with tickPend := true }.fatalPend = false ∧
      { loop .send 0#20 with tickPend := true }.cancelPend = false ∧
      { loop .send 0#20 with tickPend := true }.tickPend = true) ∧
    ((loop .send 0#20).fatalPend = false ∧ (loop .send 0#20).cancelPend = false ∧ (loop .send 0#20).tickPend = false) := by
  decide

/-- Each state but `SEND`. -/
theorem witness_StrayResultIgnored :
    State.reset.sstate ≠ .send ∧ (loop .wait 0#20).sstate ≠ .send ∧ (loop .exitCancel 0#20).sstate ≠ .send ∧
    (loop .exitFatal 0#20).sstate ≠ .send := by decide

/-- A step that starts the loop and one that ends it. -/
theorem witness_TransitionsFollowTable :
    (∃ t, runInput (.command 0x41000000#32) State.reset = .next t) ∧ ∃ t, runInput (.txr true) busy = .next t :=
  ⟨⟨_, rfl⟩, ⟨_, rfl⟩⟩

/-- A pulse and a result that each emit a `TX_REQ`. -/
theorem witness_TxReqCarriesLatestVector :
    gives .tb (loop .wait 0#20) [.txReq frameN] = true ∧
    gives (.txr false) { loop .send 1#20 with tickPend := true } [.event .failLow, .txReq frameN] = true := by decide +kernel

/-- For the first part a command, a pulse, and a result in a state that ignores it; for the second a pulse that emits nothing. -/
theorem witness_CountersAndFrameOwnedByLoop :
    gives (.command 0x40000000#32) busy [.response .ok 0#32] = true ∧ gives .tb (loop .wait 1#20) [] = true ∧
    gives (.txr true) (loop .wait 0#20) [] = true ∧ (∀ ok, Input.tb ≠ .txr ok) ∧ (loop .wait 0#20).sstate ≠ .send ∧
    Input.tb ≠ .hreset ∧ Input.tb ≠ .command 0x01000000#32 :=
  ⟨by decide, by decide, by decide, nofun, by decide, by decide, by decide⟩

/-- A count one below its interval, with a result and with a command that is no write of `STAT_IVL`. -/
theorem witness_StatusCountStaysBelowInterval :
    gives (.txr true) { loop .send 0#20 with statCnt := 249#16 } [.event .status] (fun t => decide (t.statIvl ≠ 0#16)) = true ∧
    { loop .send 0#20 with statCnt := 249#16 }.statCnt.toNat < { loop .send 0#20 with statCnt := 249#16 }.statIvl.toNat ∧
    (0x031B0005#32).extractLsb' 16 16 ≠ 0x031C#16 := by decide

theorem witness_PeriodOfRate :
    1 ≤ { State.reset with rate := 1#16 }.rate.toNat ∧ 1 ≤ { State.reset with rate := 65535#16 }.rate.toNat := by decide

/-- A failure that ends the loop: two events in one step; and an input that is no `WR EVT`. -/
theorem witness_EventsSetStickyBits :
    gives (.txr false) busy [.event .failLow, .event .exitFatal] (fun t => decide (t.evt = 0b10010#5)) = true ∧
    Input.txr false ≠ .hreset ∧ Input.txr false ≠ .command 0x01000000#32 ∧
    ∀ v : BitVec 16, Input.txr false ≠ .command (0x0337#16 ++ v) :=
  ⟨by decide +kernel, by decide, by decide, nofun⟩

/-- An event pending and enabled, and one pending and not enabled. -/
theorem witness_IrqIsEnabledEvent :
    irq { State.reset with evt := 0x10#5, ien := 0x10#5 } = true ∧ irq { State.reset with evt := 0x0F#5, ien := 0x10#5 } = false ∧
    State.reset.ien = 0#5 := by decide

/-- Two states alike for the scheduler that differ in what the datapath owns; and a datapath command that runs. -/
theorem witness_DatapathAndSchedulerDoNotInterfere :
    SameForScheduler busy { busy with crc := 0xFF#8, rxlen := 0#7, rev := 0xFFFF#16 } ∧
    { busy with crc := 0xFF#8, rxlen := 0#7, rev := 0xFFFF#16 } ≠ busy ∧
    (∃ t, runInput .tb busy = .next t) ∧ isDatapath .dec = true ∧ ∃ t, exec .dec busy = .next t :=
  ⟨by constructor <;> rfl, by decide +kernel, ⟨_, rfl⟩, rfl, ⟨_, rfl⟩⟩

/-- The canonical form of a frame's bytes, written once upward and once with a byte overwritten. -/
theorem witness_CanonicalBuffersReadingAlikeAreEqual :
    (Memory.ofBytes frameN).wf = true ∧ (Memory.write (Memory.write (Memory.ofBytes frameN) 0 0x00#8) 0 0xC8#8).wf = true ∧
    Memory.write (Memory.write (Memory.ofBytes frameN) 0 0x00#8) 0 0xC8#8 = Memory.ofBytes frameN := by decide +kernel

end Sys2Proof.Tests
end

section
/-! SUPPORT. The answers to illegal and reserved words (R48): the table `opcodeMasks` of the statements is the opcode map of the
decoder read row by row, so what the table says of a word decides what the word decodes to and what it answers. -/

namespace Sys2Proof.Encoding

open Sys2Proof.Machine Sys2Proof.Safety

/-! ### The table of opcodes and masks against the decoder -/

/-- Looking an opcode up among the opcodes and masks of some rows is finding the row and taking its mask. -/
theorem lookup_map_reservedMask (rows : List OpRow) (op : BitVec 8) :
    (rows.map fun row => (row.op, row.format.reservedMask)).lookup op =
      (rows.find? fun row => row.op == op).map (·.format.reservedMask) := by
  induction rows with
  | nil => rfl
  | cons row rows ih =>
    by_cases h : row.op = op
    · simp [h]
    · have hbeq : (op == row.op) = false := beq_false_of_ne (Ne.symm h)
      simp [List.lookup_cons, h, hbeq, ih]

/-- The table of `opcode_table.json` is the opcode map of R46 with the masks of R44. -/
theorem opcodeMasks_eq_map : opcodeMasks = opcodeMap.map fun row => (row.op, row.format.reservedMask) := rfl

/-- The table has the mask of the row the decoder finds. -/
theorem lookup_opcodeMasks (op : BitVec 8) :
    opcodeMasks.lookup op = (findRow op).map (·.format.reservedMask) := by
  rw [opcodeMasks_eq_map, lookup_map_reservedMask, findRow]

/-- The undefined opcodes are the five gaps of the opcode map (R48). -/
theorem lookup_opcodeMasks_eq_none_iff (op : BitVec 8) :
    opcodeMasks.lookup op = none ↔
      (0x05 ≤ op.toNat ∧ op.toNat ≤ 0x0F) ∨ (0x12 ≤ op.toNat ∧ op.toNat ≤ 0x1F) ∨
        (0x27 ≤ op.toNat ∧ op.toNat ≤ 0x2F) ∨ (0x32 ≤ op.toNat ∧ op.toNat ≤ 0x3F) ∨
        (0x44 ≤ op.toNat ∧ op.toNat ≤ 0xFF) := by
  have hlt : op.toNat < 256 := op.isLt
  have hkeys : opcodeMasks.lookup op = none ↔ ∀ row ∈ opcodeMasks, op.toNat ≠ row.1.toNat := by
    simp [List.lookup_eq_none_iff, BitVec.toNat_eq]
  rw [hkeys]
  simp [opcodeMasks]
  omega

/-! ### What a word decodes to and answers -/

/-- A word with an undefined opcode is illegal (R48). -/
theorem decode_of_lookup_none {w : Word} (h : opcodeMasks.lookup (opField w) = none) : decode w = .illegal := by
  rw [lookup_opcodeMasks, Option.map_eq_none_iff] at h
  simp [decode, h]

/-- A word with a known opcode and a reserved bit set is reserved (R48). -/
theorem decode_of_reserved {w mask : Word} (h : opcodeMasks.lookup (opField w) = some mask)
    (hbit : w &&& mask ≠ 0#32) : decode w = .reserved := by
  rw [lookup_opcodeMasks, Option.map_eq_some_iff] at h
  obtain ⟨row, hrow, rfl⟩ := h
  simp [decode, hrow, hbit]

/-- An illegal word answers `ILLEGAL` 0 and changes nothing else (R48). -/
theorem runWord_of_illegal {w : Word} (h : decode w = .illegal) (s : State) :
    runWord w s = .next (respond .illegal 0#32 s) := by
  simp [runWord, h, answerIllegal, failWith]

/-- A reserved word answers `RSVD` 0 and changes nothing else (R48). -/
theorem runWord_of_reserved {w : Word} (h : decode w = .reserved) (s : State) :
    runWord w s = .next (respond .rsvd 0#32 s) := by
  simp [runWord, h, answerReserved, failWith]

/-- A word that is a command runs the command. -/
theorem runWord_of_command {w : Word} {i : Instr} (h : decode w = .command i) (s : State) :
    runWord w s = exec i s := by
  simp [runWord, h]

/-! ### `WR IEN` and `WR EVT` -/

/-- Every word with the opcode of `WR` is a command: its format reserves nothing (R44, R46). -/
theorem decode_wr (idx : BitVec 8) (v : BitVec 16) :
    decode (0x03#8 ++ idx ++ v) = .command (.wr idx.toNat v) := by
  have hrow : findRow 0x03#8 = some ⟨0x03#8, .xi, fun idx imm => .wr idx.toNat imm⟩ := rfl
  simp [decode, Laws.opField_append, hrow, Laws.reserved_xi, Laws.idxField_append, Laws.immField_append]

/-- A write of a writable register stores the value and answers `OK` 0 (R56). -/
theorem runWord_wr_of_regWrite {idx : BitVec 8} {v : BitVec 16} {s t : State} {reg : Reg}
    (hreg : regOf idx.toNat = some reg) (hwrite : regWrite reg v s = some t) :
    runWord (0x03#8 ++ idx ++ v) s = .next (respond .ok 0#32 t) := by
  simp [runWord_of_command (decode_wr idx v), exec, execWr, hreg, hwrite]

/-- `WR IEN` stores `imm[4:0]`, whatever the other bits are (R18, R48). -/
theorem runWord_wr_ien (v : BitVec 16) (s : State) :
    runWord (0x031D#16 ++ v) s = .next (respond .ok 0#32 { s with ien := v.extractLsb' 0 5 }) := by
  have hword : 0x031D#16 ++ v = 0x03#8 ++ 0x1D#8 ++ v := rfl
  rw [hword]
  exact runWord_wr_of_regWrite (reg := .ien) rfl rfl

/-- `WR EVT` clears the events of `imm[4:0]`, whatever the other bits are (R24, R48). -/
theorem runWord_wr_evt (v : BitVec 16) (s : State) :
    runWord (0x0337#16 ++ v) s = .next (respond .ok 0#32 { s with evt := s.evt &&& ~~~(v.extractLsb' 0 5) }) := by
  have hword : 0x0337#16 ++ v = 0x03#8 ++ 0x37#8 ++ v := rfl
  rw [hword]
  exact runWord_wr_of_regWrite (reg := .evt) rfl rfl

/-- Settles O3: the opcode table is the decoder's map, so the first three clauses are facts about `decode`; the writes of `IEN`
and `EVT` read their immediate only through its low five bits. -/
theorem illegalAndReservedWords : Obligations.IllegalAndReservedWords := by
  unfold Obligations.IllegalAndReservedWords
  refine ⟨lookup_opcodeMasks_eq_none_iff, ?illegal, ?reserved, ?ignored, ?zeroWord, ?onesWord⟩
  case illegal => exact fun w s h => runWord_of_illegal (decode_of_lookup_none h) s
  case reserved => exact fun w mask s h hbit => runWord_of_reserved (decode_of_reserved h hbit) s
  case ignored =>
    intro v v' s hlow
    refine ⟨?_, ?_, ⟨_, runWord_wr_ien v s⟩, ⟨_, runWord_wr_evt v s⟩⟩
    · rw [runWord_wr_ien, runWord_wr_ien, hlow]
    · rw [runWord_wr_evt, runWord_wr_evt, hlow]
  case zeroWord => decide
  case onesWord => exact decode_of_lookup_none (by decide)

end Sys2Proof.Encoding
end

section
/-! SUPPORT. The host access commands `NOP`, `RESET`, `RD`, `WR`, `RDM` (`40_host_access.md`): their words, the register and space
tables of the statements against the machine's own names, and what leads out of an `EXIT` state. -/

namespace Sys2Proof.HostAccess

open Sys2Proof.Machine Sys2Proof.Safety

/-! ### Words with reserved bits (R44, R52) -/

/-- Format `N` reserves exactly the 24 bits below the opcode. -/
theorem and_reservedMask_n (op : BitVec 8) (low : BitVec 24) :
    (op ++ low) &&& Format.n.reservedMask = 0#8 ++ low := by
  have hmask : Format.n.reservedMask = 0#8 ++ BitVec.allOnes 24 := rfl
  rw [hmask, BitVec.and_append, BitVec.and_zero, BitVec.and_allOnes]

/-- Format `X` reserves exactly the immediate. -/
theorem and_reservedMask_x (op idx : BitVec 8) (imm : BitVec 16) :
    (op ++ idx ++ imm) &&& Format.x.reservedMask = 0#16 ++ imm := by
  have hmask : Format.x.reservedMask = 0#16 ++ BitVec.allOnes 16 := rfl
  rw [hmask, BitVec.and_append, BitVec.and_zero, BitVec.and_allOnes]

/-- The opcode field of an opcode before 24 other bits. -/
theorem opField_append_low (op : BitVec 8) (low : BitVec 24) : opField (op ++ low) = op :=
  BitVec.extractLsb'_append_eq_left

/-- A word of format `N` with anything below its opcode is reserved. -/
theorem decode_n_reserved {op : BitVec 8} {row : OpRow} {low : BitVec 24} (hrow : findRow op = some row)
    (hformat : row.format = .n) (hlow : low ≠ 0#24) : decode (op ++ low) = .reserved := by
  have hbits : (op ++ low) &&& Format.n.reservedMask ≠ 0#32 := by
    rw [and_reservedMask_n]
    exact fun h => hlow ((BitVec.append_right_inj 0#8).mp h)
  simp [decode, opField_append_low, hrow, hformat, hbits]

/-- A word of format `X` with a nonzero immediate is reserved. -/
theorem decode_x_reserved {op idx : BitVec 8} {row : OpRow} {imm : BitVec 16} (hrow : findRow op = some row)
    (hformat : row.format = .x) (himm : imm ≠ 0#16) : decode (op ++ idx ++ imm) = .reserved := by
  have hbits : (op ++ idx ++ imm) &&& Format.x.reservedMask ≠ 0#32 := by
    rw [and_reservedMask_x]
    exact fun h => himm ((BitVec.append_right_inj 0#16).mp h)
  simp [decode, Laws.opField_append, hrow, hformat, hbits]

/-- A word with a row's opcode and no reserved bit set is the row's command with its two fields. -/
theorem decode_append_of_row {op idx : BitVec 8} {imm : BitVec 16} {row : OpRow} (hrow : findRow op = some row)
    (hbits : (op ++ idx ++ imm) &&& row.format.reservedMask = 0#32) :
    decode (op ++ idx ++ imm) = .command (row.make idx imm) := by
  simp [decode, Laws.opField_append, hrow, hbits, Laws.idxField_append, Laws.immField_append]

/-- Each row makes commands of its own opcode (R46). -/
theorem opcode_make : ∀ row ∈ opcodeMap, ∀ idx imm, (row.make idx imm).opcode = row.op := by
  simp [opcodeMap, hostRows, crcRows, codecRows, shaperRows, schedRows, Instr.opcode]

/-- A word that is a command has the command's opcode, and no reserved bit of its row is set. -/
theorem row_of_decode {w : Word} {i : Instr} (h : decode w = .command i) :
    ∃ row, findRow i.opcode = some row ∧ opField w = i.opcode ∧ w &&& row.format.reservedMask = 0#32 := by
  unfold decode at h
  split at h
  · cases h
  · rename_i row hrow
    split at h
    · cases h
    · rename_i hbits
      cases h
      have hop : row.op = opField w := by simpa using List.find?_some hrow
      have hmade := opcode_make row (List.mem_of_find?_eq_some hrow) (idxField w) (immField w)
      rw [hmade, hop]
      exact ⟨row, hrow, rfl, not_not.mp hbits⟩

/-- Only the word 0x01000000 is `RESET` (R46, R54). -/
theorem eq_of_decode_reset {w : Word} (h : decode w = .command .reset) : w = 0x01000000#32 := by
  obtain ⟨row, hrow, hop, hbits⟩ := row_of_decode h
  have hfound : findRow Instr.reset.opcode = some ⟨0x01#8, .n, fun _ _ => .reset⟩ := rfl
  obtain rfl := Option.some.inj (hfound.symm.trans hrow)
  have hsplit : w = 0x01#8 ++ w.extractLsb' 0 24 := by
    have hfield : w.extractLsb' 24 8 = 0x01#8 := hop
    rw [← hfield]
    exact (BitVec.extractLsb'_append_extractLsb' (w := 8) (len := 24)).symm
  rw [hsplit, and_reservedMask_n] at hbits
  have hlow : w.extractLsb' 0 24 = 0#24 := (BitVec.append_right_inj 0#8).mp hbits
  rw [hsplit, hlow]
  rfl

/-- Settles O12: the arm of `NOP` is its one response. -/
theorem nopDoesNothing : Obligations.NopDoesNothing := by
  unfold Obligations.NopDoesNothing
  exact ⟨by decide, fun x hx => decode_n_reserved (row := ⟨0x00#8, .n, fun _ _ => .nop⟩) rfl rfl hx, fun _ => rfl⟩

/-! ### Reset -/

/-- The reset of the block puts every piece of state at its reset value (R27, R140). -/
theorem atResetValues_resetBlock (s : State) : AtResetValues (resetBlock s) := by
  constructor
  case ch | mbx | out | uch | dz | expo => intro i; simp [State.reset]
  case ebuf | txbuf | rxbuf => intro k; rfl
  all_goals rfl

/-- A response moves no piece of state off its reset value: it is in the trace alone. -/
theorem atResetValues_respond {s : State} (h : AtResetValues s) (st : Status) (d : Word) :
    AtResetValues (respond st d s) := { h with }

/-- No event is pending at the reset values, so the interrupt line is low (R133). -/
theorem irq_of_atResetValues {s : State} (h : AtResetValues s) : irq s = false := by
  simp [irq, h.evt]

/-- No frame is being sent at the reset values, so a late result is ignored (R54, R123). -/
theorem runInput_txr_of_atResetValues {s : State} (h : AtResetValues s) (ok : Bool) :
    runInput (.txr ok) s = .next s := by
  have hsstate : s.sstate ≠ .send := by simp [h.sstate]
  rw [runInput, txrStep_of_not_send ok hsstate]

/-! ### What leads out of an `EXIT` state (R54, R110) -/

/-- A command of the CRC, codec or shaper unit changes nothing the scheduler reads or writes (R38). -/
theorem sameForScheduler_of_isDatapath {i : Instr} {s t : State} (hi : isDatapath i = true)
    (h : exec i s = .next t) : SameForScheduler s t := by
  cases i with
  | crcInit | rxClr => cases h; constructor <;> rfl
  | crcUpd b => cases h; constructor <;> rfl
  | chSet c v =>
    simp only [exec, execChSet] at h
    split at h <;> cases h <;> constructor <;> rfl
  | chBtn c p =>
    simp only [exec, execChBtn] at h
    split at h <;> cases h <;> constructor <;> rfl
  | enc => obtain ⟨m, d, -, -, rfl⟩ := execEnc_cases h; constructor <;> rfl
  | dec => obtain ⟨d, -, rfl⟩ := execDec_cases h; constructor <;> rfl
  | rxPush b => obtain ⟨-, rfl⟩ | ⟨-, rfl⟩ := execRxPush_cases h <;> constructor <;> rfl
  | unpk =>
    obtain ⟨-, rfl⟩ | ⟨-, -, rfl⟩ := execUnpk_cases h
    · constructor <;> rfl
    · generalize unpack (s.rxbuf.readBytes 3 22) = v
      constructor <;> rfl
  | shpAx a x => obtain ⟨-, rfl⟩ | ⟨_, y, -, rfl⟩ := execShpAx_cases h <;> constructor <;> rfl
  | shpTrg c x => obtain ⟨-, rfl⟩ | ⟨_, y, -, rfl⟩ := execShpTrg_cases h <;> constructor <;> rfl
  | nop | reset | rd | wr | rdm | schPub | schStart | schCancel | schPclose => cases hi

/-- A read changes nothing but the trace (R55). -/
theorem execRd_eq_respond (r : Nat) (s : State) : ∃ st d, execRd r s = .next (respond st d s) := by
  cases h : regOf r with
  | none => exact ⟨_, _, execRd_of_none h⟩
  | some reg => exact ⟨_, _, execRd_of_some h⟩

/-- A read of a space changes nothing but the trace (R57). -/
theorem execRdm_eq_respond (sp off : Nat) (s : State) : ∃ st d, execRdm sp off s = .next (respond st d s) := by
  unfold execRdm
  cases spaceRead sp off s with
  | none => exact ⟨_, _, rfl⟩
  | some v => exact ⟨_, _, rfl⟩

/-- No register write reaches the scheduler state (R16, R56). -/
theorem regWrite_sstate {reg : Reg} {v : BitVec 16} {s t : State} (h : regWrite reg v s = some t) :
    t.sstate = s.sstate := by
  obtain ⟨_, -, rfl⟩ | ⟨_, -, rfl⟩ | ⟨-, rfl⟩ | ⟨-, rfl⟩ | ⟨-, rfl⟩ | ⟨-, rfl⟩ | ⟨-, rfl⟩ | ⟨-, rfl⟩ | ⟨-, rfl⟩ :=
    regWrite_cases h <;> rfl

/-- `WR` keeps the scheduler state (R56). -/
theorem execWr_sstate {r : Nat} {v : BitVec 16} {s t : State} (h : execWr r v s = .next t) :
    t.sstate = s.sstate := by
  obtain ⟨-, rfl⟩ | ⟨_, -, -, rfl⟩ | ⟨_, u, -, hu, rfl⟩ := execWr_cases h
  · rfl
  · rfl
  · rw [respond_sstate, regWrite_sstate hu]

/-- No command but `RESET` leads out of an `EXIT` state. -/
theorem exec_sstate_of_exit {i : Instr} {s t : State} (hexit : s.sstate = .exitCancel ∨ s.sstate = .exitFatal)
    (hi : i ≠ .reset) (h : exec i s = .next t) : t.sstate = s.sstate := by
  have hidle : ¬ (s.sstate = .stopped ∨ s.sstate = .wait) := by rcases hexit with hs | hs <;> simp [hs]
  have hsend : s.sstate ≠ .send := by rcases hexit with hs | hs <;> simp [hs]
  cases i with
  | reset => exact absurd rfl hi
  | nop | schPub => cases h; rfl
  | rd r =>
    obtain ⟨st, d, hrd⟩ := execRd_eq_respond r s
    cases hrd.symm.trans h
    rfl
  | rdm sp off =>
    obtain ⟨st, d, hrdm⟩ := execRdm_eq_respond sp off s
    cases hrdm.symm.trans h
    rfl
  | wr r v => exact execWr_sstate h
  | schStart =>
    rw [exec, execSchStart, if_neg (fun hs => hidle (.inl hs))] at h
    cases h
    rfl
  | schCancel =>
    obtain ⟨hs, -⟩ | ⟨hs, -⟩ | ⟨-, rfl⟩ | ⟨-, rfl⟩ := execSchCancel_cases h
    · exact absurd hs hidle
    · exact absurd hs hsend
    · rfl
    · rfl
  | schPclose =>
    obtain ⟨hs, -⟩ | ⟨hs, -⟩ | ⟨-, rfl⟩ | ⟨-, rfl⟩ := execSchPclose_cases h
    · exact absurd hs hidle
    · exact absurd hs hsend
    · rfl
    · rfl
  | crcInit | crcUpd | chSet | chBtn | enc | rxClr | rxPush | dec | unpk | shpAx | shpTrg =>
    exact (sameForScheduler_of_isDatapath rfl h).sstate.symm

/-- No word but that of `RESET` leads out of an `EXIT` state (R54). -/
theorem runWord_sstate_of_exit {w : Word} {s t : State}
    (hexit : s.sstate = .exitCancel ∨ s.sstate = .exitFatal) (hw : w ≠ 0x01000000#32)
    (h : runWord w s = .next t) : t.sstate = s.sstate := by
  cases hd : decode w with
  | illegal =>
    cases (Encoding.runWord_of_illegal hd s).symm.trans h
    rfl
  | reserved =>
    cases (Encoding.runWord_of_reserved hd s).symm.trans h
    rfl
  | command i =>
    rw [Encoding.runWord_of_command hd] at h
    have hi : i ≠ .reset := by
      rintro rfl
      exact hw (eq_of_decode_reset hd)
    exact exec_sstate_of_exit hexit hi h

/-- Settles O13: the state `RESET` leaves has the reset values, and the last three facts about it follow from them; the word of
`RESET` is the only one that decodes to it, and no other command changes the state of an ended loop. -/
theorem resetCommandResets : Obligations.ResetCommandResets := by
  unfold Obligations.ResetCommandResets
  refine ⟨by decide, ?reserved, ?resets, ?exits⟩
  case reserved => exact fun x hx => decode_n_reserved (row := ⟨0x01#8, .n, fun _ _ => .reset⟩) rfl rfl hx
  case resets =>
    intro s
    have hreset := atResetValues_respond (atResetValues_resetBlock s) .ok 0#32
    exact ⟨_, rfl, hreset, rfl, rfl, irq_of_atResetValues hreset, runInput_txr_of_atResetValues hreset⟩
  case exits => exact fun s t w hexit hw h => runWord_sstate_of_exit hexit hw h

/-! ### The register file (R16 to R24, R55) -/

/-- The register numbers of R16 with the registers they name. -/
def registerMap : List (Nat × Reg) :=
  [(0x10, .dz 0), (0x11, .dz 1), (0x12, .dz 2), (0x13, .dz 3),
   (0x14, .expo 0), (0x15, .expo 1), (0x16, .expo 2), (0x17, .expo 3),
   (0x18, .tdz), (0x19, .rev), (0x1A, .rate), (0x1B, .failThr), (0x1C, .statIvl), (0x1D, .ien),
   (0x20, .crc), (0x21, .shpY), (0x22, .rxlen), (0x23, .cstat), (0x24, .derr), (0x25, .rtype), (0x26, .rplen),
   (0x30, .sstate), (0x31, .sflags), (0x32, .failCnt), (0x33, .totalSent), (0x34, .statCnt), (0x35, .tmr),
   (0x36, .period), (0x37, .evt)]

/-- The map lists what the machine reads a register number as. -/
theorem mem_registerMap_iff {r : Nat} {reg : Reg} : (r, reg) ∈ registerMap ↔ regOf r = some reg := by
  constructor
  · have hlisted : ∀ p ∈ registerMap, regOf p.1 = some p.2 := by decide
    exact hlisted (r, reg)
  · intro h
    unfold regOf at h
    split at h <;> cases h <;> decide

/-- `CSTAT` as the sum of its three bits (R20). -/
theorem toNat_cstatValue (s : State) :
    (cstatValue s).toNat = bit s.evalid + 2 * bit s.dvalid + 4 * bit s.rxovf := by
  unfold cstatValue
  cases s.evalid <;> cases s.dvalid <;> cases s.rxovf <;> rfl

/-- `SFLAGS` as the sum of its five bits (R21). -/
theorem toNat_sflagsValue (s : State) :
    (sflagsValue s).toNat = bit s.mbxDirty + 2 * bit s.tickPend + 4 * bit s.cancelPend + 8 * bit s.fatalPend +
      16 * (if s.failThr.toNat ≤ s.failCnt.toNat then 1 else 0) := by
  have hwarn : (if s.failThr.toNat ≤ s.failCnt.toNat then 1 else 0) = bit (warn s) := by simp [bit, warn]
  rw [hwarn, sflagsValue]
  cases s.mbxDirty <;> cases s.tickPend <;> cases s.cancelPend <;> cases s.fatalPend <;> cases warn s <;> rfl

/-- `PERIOD` fits the 32 bits of a read's data (R23). -/
theorem toNat_ofNat_period (s : State) : (BitVec.ofNat 32 (period s)).toNat = 1000000 / s.rate.toNat := by
  have hlt : period s < 2 ^ 32 := Nat.lt_of_le_of_lt (Nat.div_le_self _ _) (by decide)
  exact (BitVec.toNat_ofNat _ _).trans (Nat.mod_eq_of_lt hlt)

/-- The table of the statement is the machine's registers in the order of their numbers, each with the value read. -/
theorem registerValues_eq_map (s : State) :
    registerValues s = registerMap.map fun p => (p.1, (regValue p.2 s).toNat) := by
  simp [registerValues, registerMap, regValue, BitVec.toNat_setWidth_of_le, toNat_cstatValue, toNat_sflagsValue,
    toNat_ofNat_period, -BitVec.toNat_setWidth, -BitVec.toNat_ofNat]

/-- A pair stands in the table exactly when the number names a register that reads as the value (R16). -/
theorem mem_registerValues_iff {s : State} {r v : Nat} :
    (r, v) ∈ registerValues s ↔ ∃ reg, regOf r = some reg ∧ (regValue reg s).toNat = v := by
  simp [registerValues_eq_map, mem_registerMap_iff]

/-- The register numbers that exist are those that name a register (R16). -/
theorem registerExists_eq_isSome (r : Nat) : registerExists r = (regOf r).isSome := by
  rw [Bool.eq_iff_iff, regOf_isSome_iff]
  simp [registerExists]
  omega

/-- A register number that does not exist names no register (R16). -/
theorem regOf_of_not_exists {r : Nat} (h : registerExists r = false) : regOf r = none := by
  rwa [registerExists_eq_isSome, Option.isSome_eq_false_iff, Option.isNone_iff_eq_none] at h

/-- Settles O14: a read answers the machine's own register value, which the table lists under the register's number. -/
theorem rdReadsRegister : Obligations.RdReadsRegister := by
  unfold Obligations.RdReadsRegister
  refine ⟨?decodes, ?reserved, ?reads, ?missing, ?exists_iff, ?derr, ?sstate⟩
  case decodes =>
    exact fun r => decode_append_of_row (row := ⟨0x02#8, .x, fun idx _ => .rd idx.toNat⟩) rfl (Laws.reserved_x _ _)
  case reserved =>
    exact fun r x hx => decode_x_reserved (row := ⟨0x02#8, .x, fun idx _ => .rd idx.toNat⟩) rfl rfl hx
  case reads =>
    intro s r v h
    obtain ⟨reg, hreg, rfl⟩ := mem_registerValues_iff.mp h
    rw [BitVec.ofNat_toNat, BitVec.setWidth_eq]
    exact ⟨execRd_of_some hreg, (regValue reg s).isLt⟩
  case missing => exact fun s r h => execRd_of_none (regOf_of_not_exists h)
  case exists_iff =>
    intro s r
    simp [registerExists_eq_isSome, Option.isSome_iff_exists, mem_registerValues_iff]
  case derr =>
    intro s
    refine (execRd_of_some (r := 0x24) (reg := .derr) rfl).trans ?_
    rw [regValue]
    cases s.derr <;> rfl
  case sstate =>
    intro s
    refine (execRd_of_some (r := 0x30) (reg := .sstate) rfl).trans ?_
    rw [regValue]
    cases s.sstate <;> rfl

/-! ### Register writes (R56) -/

/-- The deadzone written is the signed immediate clamped to 0..4096 (R17, R45). -/
theorem toNat_deadzoneOperand (v : BitVec 16) : ((deadzoneOperand v).toNat : Int) = min (max v.toInt 0) 4096 := by
  simp only [deadzoneOperand, clampInt, sext16, Config.dzMax, BitVec.toNat_ofInt]
  omega

/-- The expo written is the signed immediate clamped to 0..16384 (R17, R45). -/
theorem toNat_expoOperand (v : BitVec 16) : ((expoOperand v).toNat : Int) = min (max v.toInt 0) 16384 := by
  simp only [expoOperand, clampInt, sext16, Config.expoMax, BitVec.toNat_ofInt]
  omega

/-- A write of a writable register stores the value and answers `OK` 0. -/
theorem exec_wr_of_some {r : Nat} {reg : Reg} {v : BitVec 16} {s t : State} (hreg : regOf r = some reg)
    (hwrite : regWrite reg v s = some t) : exec (.wr r v) s = .next (respond .ok 0#32 t) := by
  simp [exec, execWr, hreg, hwrite]

/-- A write of a read-only register answers `RDONLY` 0. -/
theorem exec_wr_of_readOnly {r : Nat} {reg : Reg} {v : BitVec 16} {s : State} (hreg : regOf r = some reg)
    (hwrite : regWrite reg v s = none) : exec (.wr r v) s = .next (respond .rdOnly 0#32 s) := by
  simp [exec, execWr, hreg, hwrite]

/-- A write of a register that does not exist answers `BADIDX` 0. -/
theorem exec_wr_of_none {r : Nat} {v : BitVec 16} {s : State} (hreg : regOf r = none) :
    exec (.wr r v) s = .next (respond .badIdx 0#32 s) := by
  simp [exec, execWr, hreg]

/-- The read-only register numbers name registers whose write has no effect (R56). -/
theorem regWrite_of_readOnly {r : Nat} (h : registerReadOnly r = true) (v : BitVec 16) (s : State) :
    ∃ reg, regOf r = some reg ∧ regWrite reg v s = none := by
  simp only [registerReadOnly, Bool.or_eq_true, Bool.and_eq_true, decide_eq_true_eq] at h
  obtain ⟨hlo, hhi⟩ | ⟨hlo, hhi⟩ := h <;> interval_cases r <;> exact ⟨_, rfl, rfl⟩

/-- Settles O15: each register's write by its own equation in `regWrite`; the operand functions are the clamps and the low bits. -/
theorem wrStoresLegalValue : Obligations.WrStoresLegalValue := by
  unfold Obligations.WrStoresLegalValue
  refine ⟨Encoding.decode_wr, ?dz, ?expo, ?tdz, ?rev, ?rate, ?rateZero, ?failThr, ?statIvl, ?ien, ?evt, ?missing,
    ?readOnly⟩
  case dz =>
    intro s v a
    have hreg : regOf (0x10 + a.val) = some (.dz a) := by fin_cases a <;> rfl
    exact ⟨_, toNat_deadzoneOperand v, exec_wr_of_some hreg rfl⟩
  case expo =>
    intro s v a
    have hreg : regOf (0x14 + a.val) = some (.expo a) := by fin_cases a <;> rfl
    exact ⟨_, toNat_expoOperand v, exec_wr_of_some hreg rfl⟩
  case tdz => exact fun s v => ⟨_, toNat_deadzoneOperand v, exec_wr_of_some (reg := .tdz) rfl rfl⟩
  case rev => exact fun s v => exec_wr_of_some (reg := .rev) rfl rfl
  case rate =>
    intro s v hv
    have hoperand : rateOperand v = v := if_neg hv
    exact exec_wr_of_some (reg := .rate) rfl (by rw [regWrite, hoperand])
  case rateZero => exact fun s => exec_wr_of_some (reg := .rate) rfl rfl
  case failThr => exact fun s v => exec_wr_of_some (reg := .failThr) rfl rfl
  case statIvl => exact fun s v => exec_wr_of_some (reg := .statIvl) rfl rfl
  case ien =>
    intro s v
    exact ⟨maskOperand v, by simp [maskOperand, BitVec.extractLsb'_toNat], exec_wr_of_some (reg := .ien) rfl rfl⟩
  case evt =>
    intro s v
    refine ⟨s.evt &&& ~~~ maskOperand v, ?_, exec_wr_of_some (reg := .evt) rfl rfl⟩
    intro k hk
    simp [maskOperand, hk]
  case missing => exact fun s r v h => exec_wr_of_none (regOf_of_not_exists h)
  case readOnly =>
    intro s r v h
    obtain ⟨reg, hreg, hwrite⟩ := regWrite_of_readOnly h v s
    exact exec_wr_of_readOnly hreg hwrite

/-! ### The memory spaces (R30, R57) -/

/-- The table of element counts has the size of the space a number names, and 0 for a number that names none (R30). -/
theorem spaceSizes_getD (n : Nat) : spaceSizes.getD n 0 = ((spaceOf n).map spaceSize).getD 0 := by
  by_cases h : n ≤ 8
  · interval_cases n <;> rfl
  · have hnone : spaceOf n = none := by
      rw [← spaceOf_isSome_iff] at h
      simpa using h
    have hlength : spaceSizes.length ≤ n := by
      simp [spaceSizes]
      omega
    rw [hnone, List.getD_eq_default _ _ hlength]
    rfl

/-- `RDM` of an element that exists answers the element. -/
theorem exec_rdm_of_lt {n off : Nat} {sp : Space} {d : Word} {s : State} (hsp : spaceOf n = some sp)
    (hoff : off < spaceSize sp) (helem : spaceElem sp off s = d) :
    exec (.rdm n off) s = .next (respond .ok d s) := by
  simp [exec, execRdm, spaceRead, hsp, hoff, helem]

/-- `RDM` beyond a space's size, or of a space that does not exist, answers `BADIDX` 0. -/
theorem exec_rdm_of_size_le {n off : Nat} {s : State} (h : spaceSizes.getD n 0 ≤ off) :
    exec (.rdm n off) s = .next (respond .badIdx 0#32 s) := by
  rw [spaceSizes_getD] at h
  have hread : spaceRead n off s = none := by
    unfold spaceRead
    split
    · rfl
    · rename_i sp hsp
      have hoff : spaceSize sp ≤ off := by simpa [hsp] using h
      exact if_neg (by omega)
  simp [exec, execRdm, hread]

/-- A space that is a channel vector answers the channel, zero-extended (R12, R13). -/
theorem exec_rdm_chan {n : Nat} {sp : Space} {vec : ChanVec} {s : State} (i : Fin 16) (hsp : spaceOf n = some sp)
    (hsize : spaceSize sp = 16) (helem : spaceElem sp i.val s = (chanAt vec i.val).setWidth 32) :
    exec (.rdm n i.val) s = .next (respond .ok (BitVec.ofNat 32 vec[i].toNat) s) := by
  refine exec_rdm_of_lt hsp (i.isLt.trans_eq hsize.symm) ?_
  rw [helem, chanAt_of_lt vec i.isLt, BitVec.ofNat_toNat]
  rfl

/-- A space that is a byte buffer answers the byte, zero-extended (R14). -/
theorem exec_rdm_byte {n k : Nat} {sp : Space} {b : Byte} {s : State} (hsp : spaceOf n = some sp)
    (hk : k < spaceSize sp) (helem : spaceElem sp k s = b.setWidth 32) :
    exec (.rdm n k) s = .next (respond .ok (BitVec.ofNat 32 b.toNat) s) :=
  exec_rdm_of_lt hsp hk (helem.trans (BitVec.ofNat_toNat 32 b).symm)

/-- The printed CRC table holds the bitwise step of each index from 0 (R60, R61). -/
theorem crcTab_eq_crcStepBitwise (b : Byte) : crcTab b = crcStepBitwise 0#8 b := by
  revert b
  decide

/-- The printed cube table holds the rounded cube of each index (R91). -/
theorem cubeTab_eq {j : Nat} (h : j ≤ 64) : cubeTab j = (j * j * j + 8) / 16 := by
  have htable : ∀ j < 65, cubeTab j = (j * j * j + 8) / 16 := by decide
  exact htable j (by omega)

/-- Settles O16: each space number names its space, whose element is read off `spaceElem`; the two constant tables hold what their
rules compute, and the table of sizes is the machine's. -/
theorem rdmReadsElement : Obligations.RdmReadsElement := by
  unfold Obligations.RdmReadsElement
  refine ⟨?decodes, ?channels, ?frameBuffers, ?rxbuf, ?crcTab, ?cube, ?missing⟩
  case decodes =>
    intro sp off
    exact decode_append_of_row (row := ⟨0x04#8, .xi, fun idx imm => .rdm idx.toNat imm.toNat⟩) rfl (Laws.reserved_xi _)
  case channels =>
    intro s i
    exact ⟨exec_rdm_chan (sp := .ch) i rfl rfl rfl, exec_rdm_chan (sp := .uch) i rfl rfl rfl,
      exec_rdm_chan (sp := .mbx) i rfl rfl rfl, exec_rdm_chan (sp := .out) i rfl rfl rfl⟩
  case frameBuffers =>
    exact fun s k hk => ⟨exec_rdm_byte (sp := .ebuf) rfl hk rfl, exec_rdm_byte (sp := .txbuf) rfl hk rfl⟩
  case rxbuf => exact fun s k hk => exec_rdm_byte (sp := .rxbuf) rfl hk rfl
  case crcTab =>
    intro s b
    refine exec_rdm_byte (sp := .crcTab) rfl b.isLt ?_
    rw [spaceElem, BitVec.ofNat_toNat, BitVec.setWidth_eq, crcTab_eq_crcStepBitwise]
  case cube =>
    intro s j hj
    refine exec_rdm_of_lt (sp := .cube) rfl (Nat.lt_succ_of_le hj) ?_
    rw [spaceElem, cubeTab_eq hj]
  case missing =>
    rintro s sp off (hsp | hoff)
    · have hlength : spaceSizes.length ≤ sp := hsp
      have hnone : spaceSizes.getD sp 0 = 0 := List.getD_eq_default _ _ hlength
      exact exec_rdm_of_size_le (hnone.le.trans (Nat.zero_le off))
    · exact exec_rdm_of_size_le hoff

end Sys2Proof.HostAccess
end

section
/-! SUPPORT. The CRC unit (`41_crc.md`): the words of formats `N` and `I8`, the table against the shift loop, and which commands
change the running CRC. -/

namespace Sys2Proof.CrcUnit

open Sys2Proof.Machine Sys2Proof.Safety

/-! ### Words of formats `N` and `I8` (R44, R52) -/

/-- A word that is a command of format `N` is the command's opcode with nothing below it. -/
theorem eq_of_decode_n {w : Word} {i : Instr} {row : OpRow} (h : decode w = .command i)
    (hrow : findRow i.opcode = some row) (hformat : row.format = .n) : w = i.opcode ++ 0#24 := by
  obtain ⟨found, hfound, hop, hbits⟩ := HostAccess.row_of_decode h
  obtain rfl : row = found := Option.some.inj (hrow.symm.trans hfound)
  have hsplit : w = i.opcode ++ w.extractLsb' 0 24 := by
    rw [← hop]
    exact (BitVec.extractLsb'_append_extractLsb' (w := 8) (len := 24)).symm
  rw [hformat, hsplit, HostAccess.and_reservedMask_n] at hbits
  have hlow : w.extractLsb' 0 24 = 0#24 := (BitVec.append_right_inj 0#8).mp hbits
  rw [hsplit, hlow]

/-- Only the word 0x10000000 is `CRC.INIT` (R46, R64). -/
theorem eq_of_decode_crcInit {w : Word} (h : decode w = .command .crcInit) : w = 0x10000000#32 :=
  eq_of_decode_n (row := ⟨0x10#8, .n, fun _ _ => .crcInit⟩) h rfl rfl

/-- Format `I8` reserves exactly the 16 bits between the opcode and the byte. -/
theorem and_reservedMask_i8 (op b : BitVec 8) (mid : BitVec 16) :
    (op ++ mid ++ b) &&& Format.i8.reservedMask = 0#8 ++ mid ++ 0#8 := by
  have hmask : Format.i8.reservedMask = 0#8 ++ BitVec.allOnes 16 ++ 0#8 := rfl
  rw [hmask, BitVec.and_append, BitVec.and_append, BitVec.and_zero, BitVec.and_zero, BitVec.and_allOnes]

/-- The opcode field of an opcode before 16 other bits and a byte. -/
theorem opField_append_mid (op b : BitVec 8) (mid : BitVec 16) : opField (op ++ mid ++ b) = op := by
  have hassoc : op ++ mid ++ b = op ++ (mid ++ b) := BitVec.append_assoc
  rw [hassoc, HostAccess.opField_append_low]

/-- A word of format `I8` with anything between its opcode and its byte is reserved. -/
theorem decode_i8_reserved {op b : BitVec 8} {row : OpRow} {mid : BitVec 16} (hrow : findRow op = some row)
    (hformat : row.format = .i8) (hmid : mid ≠ 0#16) : decode (op ++ mid ++ b) = .reserved := by
  have hbits : (op ++ mid ++ b) &&& Format.i8.reservedMask ≠ 0#32 := by
    rw [and_reservedMask_i8]
    exact fun h => hmid ((BitVec.append_right_inj 0#8).mp ((BitVec.append_left_inj 0#8).mp h))
  simp [decode, opField_append_mid, hrow, hformat, hbits]

/-- A byte below 16 zero bits is a zero index and the byte zero-extended to an immediate. -/
theorem append_zero_append (op b : BitVec 8) : op ++ 0#16 ++ b = op ++ 0#8 ++ b.setWidth 16 := by
  have himm : b.setWidth 16 = 0#8 ++ b := BitVec.setWidth_eq_append (by decide)
  calc op ++ 0#16 ++ b
      = op ++ 0#8 ++ 0#8 ++ b := congrArg (· ++ b) (BitVec.append_assoc' (x₂ := 0#8) (x₃ := 0#8))
    _ = op ++ 0#8 ++ (0#8 ++ b) := BitVec.append_assoc
    _ = op ++ 0#8 ++ b.setWidth 16 := by rw [himm]

/-- A word of format `I8` with nothing between its opcode and its byte is the row's command of the byte. -/
theorem decode_i8_of_row {op b : BitVec 8} {row : OpRow} (hrow : findRow op = some row) (hformat : row.format = .i8) :
    decode (op ++ 0#16 ++ b) = .command (row.make 0#8 (b.setWidth 16)) := by
  rw [append_zero_append]
  exact HostAccess.decode_append_of_row hrow (hformat ▸ Laws.reserved_i8 op b)

/-- Every byte below the opcode of `CRC.UPD` and 16 zero bits is the operand of a `CRC.UPD` (R65). -/
theorem decode_crcUpd (b : Byte) : decode (0x11#8 ++ 0#16 ++ b) = .command (.crcUpd b) := by
  have hbyte : (b.setWidth 16).extractLsb' 0 8 = b := by
    rw [BitVec.extractLsb'_setWidth_of_le (by decide), BitVec.extractLsb'_eq_self]
  rw [decode_i8_of_row (row := ⟨0x11#8, .i8, fun _ imm => .crcUpd (imm.extractLsb' 0 8)⟩) rfl rfl]
  exact congrArg (fun x => Verdict.command (.crcUpd x)) hbyte

/-! ### The table-driven step (R60 to R62) -/

/-- The bitwise step sees the register and the byte only through their XOR (R60). -/
theorem crcStepBitwise_eq_xor (c b : Byte) : crcStepBitwise c b = crcStepBitwise 0#8 (c ^^^ b) := by
  rw [crcStepBitwise, crcStepBitwise, BitVec.zero_xor]

/-- One table look-up does what eight shifts do (R62). -/
theorem crcStepTable_eq_crcStepBitwise (c b : Byte) : crcStepTable c b = crcStepBitwise c b := by
  rw [crcStepTable, HostAccess.crcTab_eq_crcStepBitwise, ← crcStepBitwise_eq_xor]

/-- Settles O17: both steps depend on the register and the byte only through their XOR, and the printed table holds the bitwise
step of each byte from 0. -/
theorem tableStepAgreesWithBitwise : Obligations.TableStepAgreesWithBitwise := by
  unfold Obligations.TableStepAgreesWithBitwise
  exact fun c b => ⟨rfl, crcStepTable_eq_crcStepBitwise c b⟩

/-! ### The commands (R64, R65) -/

/-- Settles O18: the arm of `CRC.INIT` is its one write and its one response. -/
theorem crcInitClears : Obligations.CrcInitClears := by
  unfold Obligations.CrcInitClears
  refine ⟨by decide, fun x hx => ?reserved, fun _ => rfl⟩
  case reserved => exact HostAccess.decode_n_reserved (row := ⟨0x10#8, .n, fun _ _ => .crcInit⟩) rfl rfl hx

/-- `CRC.UPD` stores one table step and answers it (R65). -/
theorem exec_crcUpd (b : Byte) (s : State) :
    exec (.crcUpd b) s =
      .next (respond .ok ((crcStepTable s.crc b).setWidth 32) { s with crc := crcStepTable s.crc b }) := rfl

/-- The running CRC fed to itself becomes 0 (R65). -/
theorem exec_crcUpd_self (s : State) :
    exec (.crcUpd s.crc) s = .next (respond .ok 0#32 { s with crc := 0x00#8 }) := by
  rw [exec_crcUpd, crcStepTable_self, BitVec.setWidth_zero]

/-- No register write reaches the running CRC: `CRC` is read-only (R16, R19, R56). -/
theorem regWrite_crc {reg : Reg} {v : BitVec 16} {s t : State} (h : regWrite reg v s = some t) : t.crc = s.crc := by
  obtain ⟨_, -, rfl⟩ | ⟨_, -, rfl⟩ | ⟨-, rfl⟩ | ⟨-, rfl⟩ | ⟨-, rfl⟩ | ⟨-, rfl⟩ | ⟨-, rfl⟩ | ⟨-, rfl⟩ | ⟨-, rfl⟩ :=
    regWrite_cases h <;> rfl

/-- Only `RESET`, `CRC.INIT` and `CRC.UPD` change the running CRC. -/
theorem exec_crc {i : Instr} {s t : State} (hreset : i ≠ .reset) (hinit : i ≠ .crcInit) (hupd : ∀ b, i ≠ .crcUpd b)
    (h : exec i s = .next t) : t.crc = s.crc := by
  cases i with
  | reset => exact absurd rfl hreset
  | crcInit => exact absurd rfl hinit
  | crcUpd b => exact absurd rfl (hupd b)
  | nop | rxClr | schPub => cases h; rfl
  | rd r =>
    obtain ⟨st, d, hrd⟩ := HostAccess.execRd_eq_respond r s
    cases hrd.symm.trans h
    rfl
  | rdm sp off =>
    obtain ⟨st, d, hrdm⟩ := HostAccess.execRdm_eq_respond sp off s
    cases hrdm.symm.trans h
    rfl
  | wr r v =>
    obtain ⟨-, rfl⟩ | ⟨_, -, -, rfl⟩ | ⟨_, u, -, hu, rfl⟩ := execWr_cases h
    · rfl
    · rfl
    · rw [respond_crc, regWrite_crc hu]
  | chSet c v =>
    simp only [exec, execChSet] at h
    split at h <;> cases h <;> rfl
  | chBtn c p =>
    simp only [exec, execChBtn] at h
    split at h <;> cases h <;> rfl
  | enc => obtain ⟨_, _, -, -, rfl⟩ := execEnc_cases h; rfl
  | dec => obtain ⟨_, -, rfl⟩ := execDec_cases h; rfl
  | rxPush b => obtain ⟨-, rfl⟩ | ⟨-, rfl⟩ := execRxPush_cases h <;> rfl
  | unpk => obtain ⟨-, rfl⟩ | ⟨-, -, rfl⟩ := execUnpk_cases h <;> rfl
  | shpAx a x => obtain ⟨-, rfl⟩ | ⟨_, _, -, rfl⟩ := execShpAx_cases h <;> rfl
  | shpTrg c x => obtain ⟨-, rfl⟩ | ⟨_, _, -, rfl⟩ := execShpTrg_cases h <;> rfl
  | schStart =>
    simp only [exec, execSchStart] at h
    split at h <;> cases h <;> rfl
  | schCancel => obtain ⟨-, rfl⟩ | ⟨-, rfl⟩ | ⟨-, rfl⟩ | ⟨-, rfl⟩ := execSchCancel_cases h <;> rfl
  | schPclose => obtain ⟨-, rfl⟩ | ⟨-, rfl⟩ | ⟨-, rfl⟩ | ⟨-, rfl⟩ := execSchPclose_cases h <;> rfl

/-- No word but those of `CRC.INIT`, `RESET` and `CRC.UPD` changes the running CRC. -/
theorem runWord_crc {w : Word} {s t : State} (hinit : w ≠ 0x10000000#32) (hreset : w ≠ 0x01000000#32)
    (hupd : w.extractLsb' 24 8 ≠ 0x11#8) (h : runWord w s = .next t) : t.crc = s.crc := by
  cases hd : decode w with
  | illegal =>
    cases (Encoding.runWord_of_illegal hd s).symm.trans h
    rfl
  | reserved =>
    cases (Encoding.runWord_of_reserved hd s).symm.trans h
    rfl
  | command i =>
    rw [Encoding.runWord_of_command hd] at h
    refine exec_crc ?_ ?_ ?_ h
    · rintro rfl
      exact hreset (HostAccess.eq_of_decode_reset hd)
    · rintro rfl
      exact hinit (eq_of_decode_crcInit hd)
    · rintro b rfl
      obtain ⟨_, -, hop, -⟩ := HostAccess.row_of_decode hd
      exact hupd hop

/-- Settles O19: the arm of `CRC.UPD` is one table step, which is 0 for the running CRC itself; every other command is shown to
keep `CRC`, and a word other than the three named decodes to one of those. -/
theorem crcUpdSteps : Obligations.CrcUpdSteps := by
  unfold Obligations.CrcUpdSteps
  refine ⟨decode_crcUpd, ?reserved, ?steps, ?zero, exec_crcUpd_self, ?others⟩
  case reserved =>
    exact fun x b hx =>
      decode_i8_reserved (row := ⟨0x11#8, .i8, fun _ imm => .crcUpd (imm.extractLsb' 0 8)⟩) rfl rfl hx
  case steps =>
    intro s b
    refine ⟨crcStepTable s.crc b, rfl, crcStepTable_eq_crcStepBitwise s.crc b, ?_⟩
    rw [exec_crcUpd, BitVec.ofNat_toNat]
  case zero =>
    intro s hs
    have hsame : { s with crc := 0x00#8 } = s := by rw [← hs]
    have hself := exec_crcUpd_self s
    rwa [hs, hsame] at hself
  case others => exact fun _ _ _ hinit hreset hupd h => runWord_crc hinit hreset hupd h

end Sys2Proof.CrcUnit
end

section
/-! SUPPORT. The codec unit (`42_codec.md`): where the packer and the frame put each bit and byte, what the frame check
answers for a buffer given by its parts, and the six commands. -/

namespace Sys2Proof.CodecUnit

open Sys2Proof.Machine Sys2Proof.Safety

/-! ### The packer (R72) -/

/-- Bit `m` of the packed payload is bit `m mod 11` of channel `m // 11`: both sides are bit `m` of the stream. -/
theorem getLsbD_getD_pack (v : ChanVec) {m : Nat} (h : m < 176) :
    ((pack v).getD (m / 8) 0#8).getLsbD (m % 8) = (v[m / 11]?.getD 0#11).getLsbD (m % 11) := by
  have hbyte : m / 8 < 22 := by omega
  have hbit : m % 8 < 8 := Nat.mod_lt m (by decide)
  rw [getD_pack v hbyte, BitVec.getLsbD_ofNat, decide_eq_true hbit, Bool.true_and, Nat.testBit_shiftRight,
    Nat.div_add_mod, testBit_packStream]

/-- Settles O22: bit `j` of channel `i` is stream bit `11i + j`, and so is its place in the payload. -/
theorem packPlacesEveryBit : Obligations.PackPlacesEveryBit := by
  unfold Obligations.PackPlacesEveryBit
  intro v
  refine ⟨length_pack v, fun i j hj => ?_⟩
  have hi : i.val < 16 := i.isLt
  have hchan : (11 * i.val + j) / 11 = i.val := by omega
  have hbit : (11 * i.val + j) % 11 = j := by omega
  rw [getLsbD_getD_pack v (by omega), hchan, hbit]
  simp

/-! ### The frame (R74) -/

/-- The 24 bytes after the sync byte are those the CRC covers. -/
theorem take_drop_one_frame (v : ChanVec) : ((frame v).drop 1).take 24 = frameBody v :=
  List.take_left' (length_frameBody v)

/-- The 22 bytes after the three header bytes are the packed vector. -/
theorem take_drop_three_frame (v : ChanVec) : ((frame v).drop 3).take 22 = pack v :=
  List.take_left' (length_pack v)

/-- The last byte of the frame is the CRC of the bytes it covers. -/
theorem getD_frame_crc (v : ChanVec) : (frame v).getD 25 0#8 = crc8 (frameBody v) := by
  have hparts : frame v = (0xC8#8 :: frameBody v) ++ [crc8 (frameBody v)] := rfl
  have hlength : (0xC8#8 :: frameBody v).length = 25 := congrArg (· + 1) (length_frameBody v)
  rw [hparts, List.getD_append_right _ _ _ _ hlength.le, hlength, Nat.sub_self, List.getD_cons_zero]

/-- Settles O24: the frame is its header, the packed vector and the CRC, laid end to end. -/
theorem frameHasItsLayout : Obligations.FrameHasItsLayout := by
  unfold Obligations.FrameHasItsLayout
  intro v
  rw [take_drop_one_frame]
  exact ⟨length_frame v, rfl, rfl, rfl, take_drop_three_frame v, getD_frame_crc v⟩

/-! ### The frame check (R75) -/

section
variable {buf : List Byte}

/-- The first check: fewer than four bytes are too short. -/
theorem decodeFrame_of_short (h : buf.length < 4) : decodeFrame buf = .failed .short := if_pos h

/-- The second check: the first byte is not the sync byte. -/
theorem decodeFrame_of_not_sync (hlong : 4 ≤ buf.length) (hsync : buf.getD 0 0#8 ≠ 0xC8#8) :
    decodeFrame buf = .failed .sync := by
  rw [decodeFrame, if_neg (Nat.not_lt.mpr hlong), if_pos hsync]

/-- What is left of the frame check after the sync byte: the length byte decides. -/
theorem decodeFrame_of_sync (hlong : 4 ≤ buf.length) (hsync : buf.getD 0 0#8 = 0xC8#8) {len : Byte}
    (hlen : buf.getD 1 0#8 = len) :
    decodeFrame buf =
      if len.toNat < 2 ∨ 62 < len.toNat then .failed .len
      else if buf.length < 2 + len.toNat then .failed .trunc
      else if crc8 ((buf.drop 1).take len.toNat) = buf.getD (1 + len.toNat) 0#8 then
        ⟨.ok, buf.getD 2 0#8, len.toNat - 2⟩
      else .failed .crc := by
  rw [decodeFrame, if_neg (Nat.not_lt.mpr hlong), if_neg (not_not.mpr hsync), hlen]
  simp only [ite_not]

end

/-- The frame check of a buffer that holds a whole frame, whatever follows it: the CRC decides. -/
theorem decodeFrame_of_complete {len type crc : Byte} {payload : List Byte} (more : List Byte)
    (hlen : len.toNat = payload.length + 2) (hmax : len.toNat ≤ 62) :
    decodeFrame (0xC8#8 :: len :: type :: (payload ++ crc :: more)) =
      if crc8 (len :: type :: payload) = crc then ⟨.ok, type, payload.length⟩ else .failed .crc := by
  have hcovered : ((0xC8#8 :: len :: type :: (payload ++ crc :: more)).drop 1).take len.toNat =
      len :: type :: payload :=
    List.take_left' (l₁ := len :: type :: payload) (l₂ := crc :: more) hlen.symm
  have hcrc : (0xC8#8 :: len :: type :: (payload ++ crc :: more)).getD (1 + len.toNat) 0#8 = crc := by
    rw [hlen, show 1 + (payload.length + 2) = payload.length + 1 + 1 + 1 by omega]
    simp
  have hsize : (0xC8#8 :: len :: type :: (payload ++ crc :: more)).length = payload.length + more.length + 4 := by
    simp only [List.length_cons, List.length_append]
    omega
  rw [decodeFrame_of_sync (len := len) (by omega) rfl rfl, if_neg (by omega), if_neg (by omega), hcovered, hcrc,
    hlen, Nat.add_sub_cancel]
  rfl

/-- Settles O25: each clause is the frame check with the checks before its own passed. -/
theorem frameCheckInOrder : Obligations.FrameCheckInOrder := by
  unfold Obligations.FrameCheckInOrder
  refine ⟨fun _ => decodeFrame_of_short, fun _ => decodeFrame_of_not_sync, ?len, ?trunc, ?crc, ?ok⟩
  case len =>
    intro len x y more hlen
    rw [decodeFrame_of_sync (len := len) (by simp) rfl rfl, if_pos hlen]
    rfl
  case trunc =>
    intro len body hmin hmax hbody hcut
    have hsize : (0xC8#8 :: len :: body).length = body.length + 2 := rfl
    rw [decodeFrame_of_sync (len := len) (by omega) rfl rfl, if_neg (by omega), if_pos (by omega)]
    rfl
  case crc =>
    intro len type crc payload more hlen hmax hcrc
    rw [decodeFrame_of_complete more hlen hmax, if_neg hcrc]
    rfl
  case ok =>
    intro len type crc payload more hlen hmax hcrc
    rw [decodeFrame_of_complete more hlen hmax, if_pos hcrc]

/-- The payload length found fits the six bits of `RPLEN` (R20, R75). -/
theorem plen_decodeFrame_lt (buf : List Byte) : (decodeFrame buf).plen < 64 := by
  obtain ⟨-, h⟩ | ⟨-, -, h⟩ | ⟨-, -, -, h⟩ | ⟨-, -, -, -, -, h⟩ | ⟨-, -, -, -, -, -, h⟩ |
    ⟨-, -, -, hmax, -, -, h⟩ := decodeFrame_cases buf <;> rw [h]
  case inr.inr.inr.inr.inr => exact lt_of_le_of_lt (Nat.sub_le _ 2) (by omega)
  all_goals exact Nat.zero_lt_succ 63

/-! ### `ENC` (R77) -/

/-- `ENC` with the new buffer by its defining equation, so that no proof evaluates a frame. -/
theorem exec_enc {s : State} {m : Memory} (hm : m = Memory.ofBytes (frame s.ch)) :
    exec .enc s = .next (respond .ok (BitVec.ofNat 32 (m.read 25).toNat) { s with ebuf := m, evalid := true }) := by
  have hread : m.read 25 = (frame s.ch).getD 25 0#8 := by
    rw [hm, Memory.read_ofBytes]
    rfl
  rw [hread, BitVec.ofNat_toNat, hm]
  rfl

/-- A buffer rewritten with a frame reads back as the frame. -/
theorem readBytes_ofBytes_frame (v : ChanVec) : (Memory.ofBytes (frame v)).readBytes 0 26 = frame v := by
  have h := Memory.readBytes_ofBytes (frame v)
  rwa [length_frame] at h

/-- A buffer rewritten with a frame holds nothing beyond it. -/
theorem read_ofBytes_frame_of_ge (v : ChanVec) {k : Nat} (h : 26 ≤ k) :
    (Memory.ofBytes (frame v)).read k = 0x00#8 := by
  rw [Memory.read_ofBytes, List.getD_eq_default _ _ (by rw [length_frame]; exact h)]
  rfl

/-- The least payload: every channel 0 (R77). -/
theorem pack_replicate_zero : pack (Vector.replicate 16 0#11) = List.replicate 22 0x00#8 := by decide

/-- The greatest payload: every channel 2047 (R77). -/
theorem pack_replicate_max : pack (Vector.replicate 16 2047#11) = List.replicate 22 0xFF#8 := by decide

/-- Settles O29: the arm of `ENC` writes the whole frame; the three named vectors are evaluated. -/
theorem encBuildsFrame : Obligations.EncBuildsFrame := by
  unfold Obligations.EncBuildsFrame
  refine ⟨by decide, ?reserved, ?frame, pack_replicate_zero, ?crcZero, pack_replicate_max, ?crcMax, ?crcNeutral⟩
  case reserved => exact fun x hx => HostAccess.decode_n_reserved (row := ⟨0x22#8, .n, fun _ _ => .enc⟩) rfl rfl hx
  case frame =>
    exact fun s => ⟨Memory.ofBytes (frame s.ch), readBytes_ofBytes_frame s.ch,
      fun _ hk => read_ofBytes_frame_of_ge s.ch hk, exec_enc rfl⟩
  case crcZero =>
    rw [getD_frame_crc, frameBody, pack_replicate_zero]
    decide +kernel
  case crcMax =>
    rw [getD_frame_crc, frameBody, pack_replicate_max]
    decide +kernel
  case crcNeutral =>
    rw [getD_frame_crc]
    decide +kernel

/-! ### `RX.PUSH` and `RX.CLR` (R79, R80) -/

/-- Every byte below the opcode of `RX.PUSH` and 16 zero bits is the operand of an `RX.PUSH` (R80). -/
theorem decode_rxPush (b : Byte) : decode (0x24#8 ++ 0#16 ++ b) = .command (.rxPush b) := by
  have hbyte : (b.setWidth 16).extractLsb' 0 8 = b := by
    rw [BitVec.extractLsb'_setWidth_of_le (by decide), BitVec.extractLsb'_eq_self]
  rw [CrcUnit.decode_i8_of_row (row := ⟨0x24#8, .i8, fun _ imm => .rxPush (imm.extractLsb' 0 8)⟩) rfl rfl]
  exact congrArg (fun x => Verdict.command (.rxPush x)) hbyte

/-- `RX.PUSH` on a full buffer (R80). -/
theorem exec_rxPush_of_full (b : Byte) {s : State} (h : s.rxlen = 64#7) :
    exec (.rxPush b) s = .next (respond .ok 64#32 { s with rxovf := true }) := if_pos h

/-- `RX.PUSH` on a buffer with a place left (R80). -/
theorem exec_rxPush_of_not_full (b : Byte) {s : State} (h : s.rxlen ≠ 64#7) :
    exec (.rxPush b) s = .next (respond .ok ((s.rxlen + 1#7).setWidth 32)
      { s with rxbuf := s.rxbuf.write s.rxlen.toNat b, rxlen := s.rxlen + 1#7, dvalid := false }) := if_neg h

/-- Settles O31: the two arms of `RX.PUSH`, the bytes by the law of a read after a write. -/
theorem rxPushStoresOrOverflows : Obligations.RxPushStoresOrOverflows := by
  unfold Obligations.RxPushStoresOrOverflows
  refine ⟨decode_rxPush, ?reserved, ?stores, ?full⟩
  case reserved =>
    exact fun x b hx =>
      CrcUnit.decode_i8_reserved (row := ⟨0x24#8, .i8, fun _ imm => .rxPush (imm.extractLsb' 0 8)⟩) rfl rfl hx
  case stores =>
    intro s b hwf hlt
    have hnotFull : s.rxlen ≠ 64#7 := by
      intro h
      simp [h] at hlt
    refine ⟨s.rxbuf.write s.rxlen.toNat b, s.rxlen + 1#7, ?_, fun k hk => ?_, ?_, ?_⟩
    · rw [Memory.read_write hwf, if_pos rfl]
    · rw [Memory.read_write hwf, if_neg hk]
    · exact BitVec.toNat_add_of_lt (show s.rxlen.toNat + 1 < 2 ^ 7 by omega)
    · rw [exec_rxPush_of_not_full b hnotFull, BitVec.ofNat_toNat]
  case full => exact fun s b h => exec_rxPush_of_full b (BitVec.eq_of_toNat_eq h)

/-- Settles O30: the arm of `RX.CLR` is its six writes and its one response. -/
theorem rxClrEmptiesBuffer : Obligations.RxClrEmptiesBuffer := by
  unfold Obligations.RxClrEmptiesBuffer
  refine ⟨by decide, ?reserved, fun _ => rfl⟩
  case reserved => exact fun x hx => HostAccess.decode_n_reserved (row := ⟨0x23#8, .n, fun _ _ => .rxClr⟩) rfl rfl hx

/-! ### `DEC` (R78) -/

/-- `DEC` answers and records what the frame check finds in the bytes received. -/
theorem exec_dec (s : State) :
    exec .dec s = .next (respond .ok (BitVec.ofNat 32 (derrNumber (decodeFrame (rxBytes s)).err))
      (recordDecode (decodeFrame (rxBytes s)) s)) := by
  rw [← derrCode_setWidth]
  rfl

/-- A repeated `DEC` finds the same and changes nothing but the trace: the first one kept `RXBUF` and `RXLEN`. -/
theorem exec_dec_of_exec_dec {s t : State} (h : exec .dec s = .next t) :
    exec .dec t = .next (respond .ok (BitVec.ofNat 32 (derrNumber t.derr)) t) := by
  obtain ⟨d, hd, rfl⟩ := execDec_cases h
  have hkept : rxBytes (respond .ok ((derrCode d.err).setWidth 32) (recordDecode d s)) = rxBytes s := rfl
  rw [exec_dec, hkept, ← hd]
  rfl

/-- Settles O32: the arm of `DEC` records the frame check's finding, which depends only on what `DEC` keeps. -/
theorem decRecordsFrameCheck : Obligations.DecRecordsFrameCheck := by
  unfold Obligations.DecRecordsFrameCheck
  refine ⟨by decide, ?reserved, ?records, ?repeated, ?empty⟩
  case reserved => exact fun x hx => HostAccess.decode_n_reserved (row := ⟨0x25#8, .n, fun _ _ => .dec⟩) rfl rfl hx
  case records =>
    intro s
    refine ⟨decodeFrame (rxBytes s), BitVec.ofNat 6 (decodeFrame (rxBytes s)).plen, rfl, ?_, exec_dec s⟩
    rw [BitVec.toNat_ofNat]
    exact Nat.mod_eq_of_lt (plen_decodeFrame_lt _)
  case repeated =>
    intro s t u ht hu
    rw [exec_dec_of_exec_dec ht] at hu
    obtain rfl := Host.Outcome.next.inj hu
    exact ⟨rfl, rfl⟩
  case empty =>
    intro s hlen
    refine ⟨_, exec_dec s, ?_⟩
    have hshort : (rxBytes s).length < 4 := by simp [rxBytes, hlen]
    rw [decodeFrame_of_short hshort]
    rfl

/-! ### `CH.SET` (R82) -/

/-- `CH.SET` stores at most 2047 (R45, R82). -/
theorem toNat_channelOperand (v : BitVec 16) : (channelOperand v).toNat = min v.toNat 2047 := by
  rw [channelOperand, BitVec.toNat_ofNat]
  exact Nat.mod_eq_of_lt (lt_of_le_of_lt (Nat.min_le_right _ _) (by decide))

/-- Settles O28: the two arms of `CH.SET`, by whether the channel exists. -/
theorem chSetStoresClamped : Obligations.ChSetStoresClamped := by
  unfold Obligations.ChSetStoresClamped
  refine ⟨?word, ?stores, ?missing⟩
  case word =>
    exact fun c v =>
      HostAccess.decode_append_of_row (row := ⟨0x20#8, .xi, fun idx imm => .chSet idx.toNat imm⟩) rfl
        (Laws.reserved_xi _)
  case stores =>
    intro s c v
    refine ⟨channelOperand v, toNat_channelOperand v, ?_⟩
    simp only [exec, execChSet, channelOf_of_lt c.isLt, BitVec.ofNat_toNat]
    rfl
  case missing =>
    intro s c v hc
    simp only [exec, execChSet, channelOf_of_ge hc]
    rfl

/-! ### `UNPK` (R81) -/

/-- Settles O33: the two arms of `UNPK`, by the two tests of its guard. -/
theorem unpkUnpacksDecodedFrame : Obligations.UnpkUnpacksDecodedFrame := by
  unfold Obligations.UnpkUnpacksDecodedFrame
  refine ⟨by decide, ?reserved, ?unpacks, ?refuses⟩
  case reserved => exact fun x hx => HostAccess.decode_n_reserved (row := ⟨0x26#8, .n, fun _ _ => .unpk⟩) rfl rfl hx
  case unpacks =>
    intro s hvalid hlong
    have hguard : ¬ (s.dvalid = false ∨ s.rplen.toNat < 22) := by
      rintro (h | h)
      · exact Bool.false_ne_true (h.symm.trans hvalid)
      · exact absurd hlong (Nat.not_le.mpr h)
    exact if_neg hguard
  case refuses => exact fun s hguard => if_pos hguard

end Sys2Proof.CodecUnit
end

section
/-! SUPPORT. The shaper unit (`43_shaper.md`): the laws of its functions on integers, in the order of the rules, and the three
commands written over them. -/

namespace Sys2Proof.ShaperUnit

open Sys2Proof.Machine

/-! ### Deadzone rescale (R90) -/

/-- A magnitude inside the deadzone gives 0. -/
theorem dzscale_of_le {m dz : Nat} (h : m ≤ dz) : dzscale m dz = 0 := if_pos h

/-- A magnitude above the deadzone gives the floored quotient. -/
theorem dzscale_of_lt {m dz : Nat} (h : dz < m) : dzscale m dz = (m - dz) * 2 ^ 14 / (16384 - dz) :=
  if_neg (Nat.not_le.mpr h)

/-- A greater magnitude gives no less: both quotients have the same divisor. -/
theorem dzscale_mono {m m' : Nat} (dz : Nat) (h : m ≤ m') : dzscale m dz ≤ dzscale m' dz := by
  by_cases hin : m ≤ dz
  · rw [dzscale_of_le hin]
    exact Nat.zero_le _
  · have hout : dz < m := Nat.not_le.mp hin
    rw [dzscale_of_lt hout, dzscale_of_lt (hout.trans_le h)]
    exact Nat.div_le_div_right (Nat.mul_le_mul_right _ (Nat.sub_le_sub_right h dz))

/-- Full travel is preserved exactly. -/
theorem dzscale_full {dz : Nat} (hdz : dz < 16384) : dzscale 16384 dz = 16384 := by
  rw [dzscale_of_lt hdz]
  exact Nat.mul_div_cancel_left _ (Nat.sub_pos_of_lt hdz)

/-- A magnitude within full travel stays within it. -/
theorem dzscale_le_full {m dz : Nat} (hm : m ≤ 16384) (hdz : dz < 16384) : dzscale m dz ≤ 16384 :=
  (dzscale_mono dz hm).trans_eq (dzscale_full hdz)

/-- Without a deadzone the rescale is the identity. -/
theorem dzscale_zero (m : Nat) : dzscale m 0 = m := by
  rcases Nat.eq_zero_or_pos m with rfl | hpos
  · exact dzscale_of_le le_rfl
  · rw [dzscale_of_lt hpos]
    exact Nat.mul_div_cancel _ (by decide)

/-- A deadzone never raises a magnitude within full travel. -/
theorem dzscale_le_self {m dz : Nat} (hm : m ≤ 16384) : dzscale m dz ≤ m := by
  by_cases hin : m ≤ dz
  · rw [dzscale_of_le hin]
    exact Nat.zero_le m
  · rw [dzscale_of_lt (Nat.not_le.mp hin)]
    refine Nat.div_le_of_le_mul ?_
    calc (m - dz) * 2 ^ 14 = 2 ^ 14 * m - dz * 2 ^ 14 := by rw [Nat.sub_mul, Nat.mul_comm m]
      _ ≤ 2 ^ 14 * m - dz * m := Nat.sub_le_sub_left (Nat.mul_le_mul_left dz hm) _
      _ = (16384 - dz) * m := (Nat.sub_mul _ _ _).symm

/-- The curve leaves zero by one step at the edge of the deadzone: the divisor is more than half of the dividend 16384. -/
theorem dzscale_succ {dz : Nat} (hdz : dz ≤ 4096) : dzscale (dz + 1) dz = 1 := by
  rw [dzscale_of_lt (Nat.lt_add_one dz), Nat.add_sub_cancel_left]
  exact Nat.div_eq_of_lt_le (by omega) (by omega)

/-- Settles O34: the two branches of the rescale, and the laws that follow from its being monotone with full travel fixed. -/
theorem deadzoneRescaleLaws : Obligations.DeadzoneRescaleLaws := by
  unfold Obligations.DeadzoneRescaleLaws
  intro dz hdz
  have hlegal : dz < 16384 := by omega
  exact ⟨fun _ => dzscale_of_le, fun _ hlt _ => dzscale_of_lt hlt, fun _ hm => dzscale_le_full hm hlegal,
    dzscale_full hlegal, dzscale_succ hdz, fun m _ => dzscale_zero m, fun _ _ hle _ => dzscale_mono dz hle⟩

/-! ### The cube table (R91) -/

/-- The cube is never above the identity at a knot. -/
theorem cubeTab_le_knot {j : Nat} (hj : j ≤ 64) : cubeTab j ≤ 256 * j := by
  have hsquare : j * j ≤ 64 * 64 := Nat.mul_le_mul hj hj
  have hcube : j * j * j ≤ 64 * 64 * j := Nat.mul_le_mul_right j hsquare
  rw [HostAccess.cubeTab_eq hj]
  omega

/-- The table is non-decreasing. -/
theorem cubeTab_mono {i j : Nat} (hij : i ≤ j) (hj : j ≤ 64) : cubeTab i ≤ cubeTab j := by
  rw [HostAccess.cubeTab_eq (hij.trans hj), HostAccess.cubeTab_eq hj]
  gcongr

/-! ### The cube by interpolation (R92) -/

/-- The interpolation holds at full travel too: there the position inside the segment is 0. -/
theorem cube_eq {r : Nat} (hr : r ≤ 16384) :
    cube r = cubeTab (r / 256) + (cubeTab (r / 256 + 1) - cubeTab (r / 256)) * (r % 256) / 256 := by
  by_cases hfull : r / 256 = 64
  · have hpos : r % 256 = 0 := by omega
    have hend : cube r = cubeTab 64 := if_pos hfull
    rw [hend, hfull, hpos]
    rfl
  · exact if_neg hfull

/-- The cube is at its knot's value or above. -/
theorem cubeTab_le_cube {r : Nat} (hr : r ≤ 16384) : cubeTab (r / 256) ≤ cube r := by
  rw [cube_eq hr]
  exact Nat.le_add_right _ _

/-- Below full travel the cube has not passed the next knot's value. -/
theorem cube_le_cubeTab_succ {r : Nat} (hr : r < 16384) : cube r ≤ cubeTab (r / 256 + 1) := by
  have hrise : cubeTab (r / 256) ≤ cubeTab (r / 256 + 1) := cubeTab_mono (Nat.le_succ _) (by omega)
  have hpart : (cubeTab (r / 256 + 1) - cubeTab (r / 256)) * (r % 256) / 256 ≤
      cubeTab (r / 256 + 1) - cubeTab (r / 256) :=
    Nat.div_le_of_le_mul (by rw [Nat.mul_comm]; exact Nat.mul_le_mul_right _ (by omega))
  rw [cube_eq hr.le]
  omega

/-- At a knot the cube is the table's value. -/
theorem cube_knot {j : Nat} (hj : j ≤ 64) : cube (256 * j) = cubeTab j := by
  have hindex : 256 * j / 256 = j := Nat.mul_div_cancel_left j (by decide)
  have hpos : 256 * j % 256 = 0 := Nat.mul_mod_right 256 j
  rw [cube_eq (by omega), hindex, hpos, Nat.mul_zero, Nat.zero_div, Nat.add_zero]

/-- The cube is non-decreasing: inside a segment by its formula, across segments by the knots between. -/
theorem cube_mono {r r' : Nat} (h : r ≤ r') (hr' : r' ≤ 16384) : cube r ≤ cube r' := by
  by_cases hsame : r / 256 = r' / 256
  · have hpos : r % 256 ≤ r' % 256 := by omega
    rw [cube_eq (h.trans hr'), cube_eq hr', hsame]
    gcongr
  · have hknot : r / 256 + 1 ≤ r' / 256 := by omega
    calc cube r ≤ cubeTab (r / 256 + 1) := cube_le_cubeTab_succ (by omega)
      _ ≤ cubeTab (r' / 256) := cubeTab_mono hknot (by omega)
      _ ≤ cube r' := cubeTab_le_cube hr'

/-- An interpolation between two values on or under the identity stays on or under it: what the low value is short of the
identity, the rise gains at most in part before the segment ends. -/
theorem interpolation_le {low high base pos : Nat} (hlow : low ≤ base) (hhigh : high ≤ base + 256) (hpos : pos ≤ 256) :
    low + (high - low) * pos / 256 ≤ base + pos := by
  obtain ⟨short, rfl⟩ := Nat.exists_eq_add_of_le hlow
  have hgain : (high - low) * pos / 256 ≤ short + pos := by
    refine Nat.div_le_of_le_mul ?_
    calc (high - low) * pos ≤ (short + 256) * pos := Nat.mul_le_mul_right pos (by omega)
      _ = short * pos + 256 * pos := Nat.add_mul _ _ _
      _ ≤ short * 256 + 256 * pos := Nat.add_le_add_right (Nat.mul_le_mul_left short hpos) _
      _ = 256 * (short + pos) := by ring
  omega

/-- The cube is never above its argument, because no knot is. -/
theorem cube_le_self {r : Nat} (hr : r ≤ 16384) : cube r ≤ r := by
  rcases hr.eq_or_lt with rfl | hlt
  · exact le_rfl
  · have hhigh : cubeTab (r / 256 + 1) ≤ 256 * (r / 256 + 1) := cubeTab_le_knot (by omega)
    calc cube r ≤ 256 * (r / 256) + r % 256 :=
          (cube_eq hr).trans_le (interpolation_le (cubeTab_le_knot (by omega)) hhigh (Nat.mod_lt r (by decide)).le)
      _ = r := Nat.div_add_mod r 256

/-- The cube of 0 is the first knot's value. -/
theorem cube_zero : cube 0 = 0 := cube_knot (Nat.zero_le 64)

/-- Settles O35: the printed table is the rounded cube of each knot, and the interpolation stays between its two knots. -/
theorem cubeLaws : Obligations.CubeLaws := by
  unfold Obligations.CubeLaws
  refine ⟨?table, ?rises, rfl, rfl, ?formula, fun _ => cube_knot, cube_zero, cube_knot le_rfl,
    fun _ _ => cube_mono, fun _ => cube_le_self⟩
  case table => exact fun j hj => ⟨HostAccess.cubeTab_eq hj, cubeTab_le_knot hj⟩
  case rises => exact fun j hj => cubeTab_mono (Nat.le_succ j) hj
  case formula => exact fun r hr => cube_eq hr.le

/-! ### The expo blend (R93) -/

/-- The rounded weighted mean. -/
theorem blend_eq (r c e : Nat) : blend r c e = ((16384 - e) * r + e * c + 8192) / 2 ^ 14 := rfl

/-- At expo 0 the blend is linear. -/
theorem blend_linear (r c : Nat) : blend r c 0 = r := by
  rw [blend_eq]
  omega

/-- At expo 16384 the blend is the cube. -/
theorem blend_cubic (r c : Nat) : blend r c 16384 = c := by
  rw [blend_eq]
  omega

/-- Two equal values blend to that value. -/
theorem blend_self {r e : Nat} (he : e ≤ 16384) : blend r r e = r := by
  have hweights : (16384 - e) * r + e * r = 16384 * r := by
    rw [← Nat.add_mul, Nat.sub_add_cancel he]
  rw [blend_eq]
  omega

/-- The blend is non-decreasing in the cube. -/
theorem blend_mono_cube {r c c' : Nat} (e : Nat) (h : c ≤ c') : blend r c e ≤ blend r c' e := by
  unfold blend
  gcongr

/-- The blend never exceeds the linear response. -/
theorem blend_le {r c e : Nat} (hc : c ≤ r) (he : e ≤ 16384) : blend r c e ≤ r :=
  (blend_mono_cube e hc).trans_eq (blend_self he)

/-- The blend of 0 and 0 is 0 at every expo. -/
theorem blend_zero (e : Nat) : blend 0 0 e = 0 := by
  simp [blend]

/-- Settles O36: the weighted mean lies between its two values, and each end of the expo takes one of them. -/
theorem blendLaws : Obligations.BlendLaws := by
  unfold Obligations.BlendLaws
  exact ⟨fun r c e _ hc he => ⟨blend_eq r c e, blend_le hc he⟩, blend_linear, blend_cubic, fun _ => blend_self, blend_zero⟩

/-! ### The mappings to a channel value (R95, R96) -/

/-- In the range of the shaper the signed mapping's quotient is not negative, so it is the rounded formula itself. -/
theorem mapS_eq {y : Int} (hlow : -16384 ≤ y) : (mapS y : Int) = (2047 * (y + 16384) + 16384) / 2 ^ 15 := by
  unfold mapS
  omega

/-- The signed mapping is non-decreasing. -/
theorem mapS_mono {y y' : Int} (h : y ≤ y') : mapS y ≤ mapS y' := by
  unfold mapS
  omega

/-- The signed mapping stays within a channel value: full travel maps to 2047. -/
theorem mapS_le {y : Int} (hhigh : y ≤ 16384) : mapS y ≤ 2047 := (mapS_mono hhigh).trans_eq rfl

/-- The unsigned mapping is non-decreasing. -/
theorem mapU_mono {t t' : Nat} (h : t ≤ t') : mapU t ≤ mapU t' := by
  unfold mapU
  gcongr

/-- The unsigned mapping stays within a channel value: full travel maps to 2047. -/
theorem mapU_le {t : Nat} (h : t ≤ 16384) : mapU t ≤ 2047 := (mapU_mono h).trans_eq rfl

/-- Settles O39: both mappings are monotone with their ends at 0 and 2047; the named points are evaluated. -/
theorem channelMappingLaws : Obligations.ChannelMappingLaws := by
  unfold Obligations.ChannelMappingLaws
  exact ⟨fun _ hlow hhigh => ⟨mapS_eq hlow, mapS_le hhigh⟩, rfl, rfl, rfl, rfl, rfl, rfl, rfl,
    fun _ _ _ h _ => mapS_mono h, fun _ h => ⟨rfl, mapU_le h⟩, rfl, rfl, rfl, fun _ _ h _ => mapU_mono h⟩

/-! ### The axis curve (R94) -/

/-- A saturated sample is within -16384..16384. -/
theorem natAbs_axisSample_le (x : BitVec 16) : (axisSample x).natAbs ≤ 16384 := by
  unfold axisSample clampInt
  omega

/-- A value of the shaper's range is what its 16-bit pattern reads back as. -/
theorem toInt_tc16 {y : Int} (hlow : -16384 ≤ y) (hhigh : y ≤ 16384) : (tc16 y).toInt = y :=
  BitVec.toInt_ofInt_eq_self (by decide) (by omega) (by omega)

/-- A sample in the shaper's range is not changed by saturation. -/
theorem axisSample_tc16 {y : Int} (hlow : -16384 ≤ y) (hhigh : y ≤ 16384) : axisSample (tc16 y) = y := by
  unfold axisSample clampInt sext16
  rw [toInt_tc16 hlow hhigh]
  omega

/-- The magnitude of the axis curve is the curve of the sample's magnitude: the sign is reattached last. -/
theorem natAbs_shapeAxis (x : BitVec 16) (dz e : Nat) :
    (shapeAxis x dz e).natAbs = shapeMagnitude (axisSample x).natAbs dz e := by
  unfold shapeAxis shapeSigned
  split
  · rw [Int.natAbs_neg, Int.natAbs_natCast]
  · exact Int.natAbs_natCast _

/-- The curve of a magnitude never exceeds the linear response. -/
theorem shapeMagnitude_le_dzscale {m dz e : Nat} (hm : m ≤ 16384) (he : e ≤ 16384) :
    shapeMagnitude m dz e ≤ dzscale m dz :=
  blend_le (cube_le_self ((dzscale_le_self hm).trans hm)) he

/-- Without deadzone and expo the curve of a magnitude is the identity. -/
theorem shapeMagnitude_identity (m : Nat) : shapeMagnitude m 0 0 = m := by
  rw [shapeMagnitude, blend_linear, dzscale_zero]

/-- A magnitude inside the deadzone gives 0. -/
theorem shapeMagnitude_of_le {m dz : Nat} (e : Nat) (h : m ≤ dz) : shapeMagnitude m dz e = 0 := by
  rw [shapeMagnitude, dzscale_of_le h, cube_zero, blend_zero]

/-- At expo 16384 a magnitude below the first knot vanishes: the first two entries of the table are 0. -/
theorem shapeMagnitude_cubic_of_le {m : Nat} (dz : Nat) (h : m ≤ 256) : shapeMagnitude m dz 16384 = 0 := by
  have hrescaled : dzscale m dz ≤ 256 := (dzscale_le_self (h.trans (by decide))).trans h
  have hknot : cube 256 = 0 := cube_knot (j := 1) (by decide)
  rw [shapeMagnitude, blend_cubic]
  exact Nat.eq_zero_of_le_zero ((cube_mono hrescaled (by decide)).trans_eq hknot)

/-- With a legal profile the shaped value is in the shaper's range. -/
theorem natAbs_shapeAxis_le (x : BitVec 16) (dz : Nat) {e : Nat} (he : e ≤ 16384) :
    (shapeAxis x dz e).natAbs ≤ 16384 := by
  have hsample := natAbs_axisSample_le x
  rw [natAbs_shapeAxis]
  exact (shapeMagnitude_le_dzscale hsample he).trans ((dzscale_le_self hsample).trans hsample)

/-- Without deadzone and expo the axis curve is the identity on the shaper's range. -/
theorem shapeAxis_identity {y : Int} (hlow : -16384 ≤ y) (hhigh : y ≤ 16384) : shapeAxis (tc16 y) 0 0 = y := by
  simp only [shapeAxis, shapeSigned, axisSample_tc16 hlow hhigh, shapeMagnitude_identity]
  split <;> omega

/-! ### The shaper commands (R99, R100) -/

/-- The answer of a shaper command has the channel value above the 16 bits of the shaped value. -/
theorem toNat_shaperData (c : Chan) (y : BitVec 16) : (shaperData c y).toNat = c.toNat * 2 ^ 16 + y.toNat := by
  have hchan : (0#5 ++ c).toNat = c.toNat := by
    rw [BitVec.toNat_append, BitVec.toNat_zero, Nat.zero_shiftLeft, Nat.zero_or]
  rw [shaperData, BitVec.toNat_append, hchan, ← Nat.shiftLeft_add_eq_or_of_lt y.isLt, Nat.shiftLeft_eq]

/-- `SHP.AX` on an axis stores and answers the shaped sample and its channel value. -/
theorem exec_shpAx (s : State) (a : Fin 4) (x : BitVec 16) {y : Int}
    (hy : y = shapeAxis x s.dz[a].toNat s.expo[a].toNat) :
    exec (.shpAx a.val x) s = .next (respond .ok (shaperData (BitVec.ofNat 11 (mapS y)) (tc16 y))
      { s with shpY := tc16 y, ch := s.ch.set a.val (BitVec.ofNat 11 (mapS y)) }) := by
  subst hy
  simp only [exec, execShpAx, axisOf_of_lt a.isLt]
  rfl

/-- `SHP.TRG` on a channel stores and answers the shaped sample and its channel value. -/
theorem exec_shpTrg (s : State) (c : Fin 16) (x : BitVec 16) {t : Nat} (ht : t = shapeTrigger x s.tdz.toNat) :
    exec (.shpTrg c.val x) s = .next (respond .ok (shaperData (BitVec.ofNat 11 (mapU t)) (BitVec.ofNat 16 t))
      { s with shpY := BitVec.ofNat 16 t, ch := s.ch.set c (BitVec.ofNat 11 (mapU t)) }) := by
  subst ht
  simp only [exec, execShpTrg, channelOf_of_lt c.isLt]
  rfl

/-- A value of at most 2047 is the channel value of that number. -/
theorem toNat_ofNat_chan {n : Nat} (h : n ≤ 2047) : (BitVec.ofNat 11 n).toNat = n := by
  rw [BitVec.toNat_ofNat]
  exact Nat.mod_eq_of_lt (Nat.lt_succ_of_le h)

/-- Settles O40: the arm of `SHP.AX` by whether the axis exists, and the cases the rule names by the laws of the curve. -/
theorem shpAxShapesAxis : Obligations.ShpAxShapesAxis := by
  unfold Obligations.ShpAxShapesAxis
  refine ⟨?word, ?shapes, ?missing, ?saturates, fun _ => shapeAxis_identity, ?vanishes⟩
  case word =>
    exact fun a x =>
      HostAccess.decode_append_of_row (row := ⟨0x30#8, .xi, fun idx imm => .shpAx idx.toNat imm⟩) rfl
        (Laws.reserved_xi _)
  case shapes =>
    intro s a x
    refine ⟨_, _, _, rfl, rfl, toNat_shaperData _ _, fun _ he => ?_, exec_shpAx s a x rfl⟩
    have hrange := natAbs_shapeAxis_le x s.dz[a].toNat he
    exact ⟨toNat_ofNat_chan (mapS_le (by omega)), toInt_tc16 (by omega) (by omega)⟩
  case missing =>
    intro s a x ha
    simp only [exec, execShpAx, axisOf_of_ge ha]
    rfl
  case saturates =>
    intro dz e
    have hhigh : axisSample 0x7FFF#16 = axisSample 16384#16 := by decide
    have hlow : axisSample 0x8000#16 = axisSample (tc16 (-16384)) := by decide
    refine ⟨congrArg (shapeSigned · dz e) hhigh, congrArg (shapeSigned · dz e) hlow, ?_⟩
    rw [← Int.natAbs_eq_zero, natAbs_shapeAxis]
    exact shapeMagnitude_of_le e (Nat.zero_le dz)
  case vanishes =>
    intro dz _
    rw [← Int.natAbs_eq_zero, natAbs_shapeAxis]
    exact shapeMagnitude_cubic_of_le dz (by decide)

/-- A trigger sample is within 0..16384 (R97). -/
theorem triggerSample_le (x : BitVec 16) : triggerSample x ≤ 16384 := by
  unfold triggerSample clampInt
  omega

/-- The trigger curve stays within full travel at every deadzone (R97). -/
theorem shapeTrigger_le (x : BitVec 16) (tdz : Nat) : shapeTrigger x tdz ≤ 16384 :=
  (dzscale_le_self (triggerSample_le x)).trans (triggerSample_le x)

/-- Settles O41: the arm of `SHP.TRG` by whether the channel exists; the curve's range makes every width exact. -/
theorem shpTrgShapesTrigger : Obligations.ShpTrgShapesTrigger := by
  unfold Obligations.ShpTrgShapesTrigger
  refine ⟨?word, ?shapes, ?missing, ?samples⟩
  case word =>
    exact fun c x =>
      HostAccess.decode_append_of_row (row := ⟨0x31#8, .xi, fun idx imm => .shpTrg idx.toNat imm⟩) rfl
        (Laws.reserved_xi _)
  case shapes =>
    intro s c x
    have hrange := shapeTrigger_le x s.tdz.toNat
    have hpattern : (BitVec.ofNat 16 (shapeTrigger x s.tdz.toNat)).toNat = shapeTrigger x s.tdz.toNat := by
      rw [BitVec.toNat_ofNat]
      exact Nat.mod_eq_of_lt (by omega)
    exact ⟨_, _, _, _, rfl, toNat_ofNat_chan (mapU_le hrange), hpattern,
      (toNat_shaperData _ _).trans (congrArg _ hpattern), exec_shpTrg s c x rfl⟩
  case missing =>
    intro s c x hc
    simp only [exec, execShpTrg, channelOf_of_ge hc]
    rfl
  case samples =>
    intro tdz htdz
    have hreleased : triggerSample 0#16 = 0 := by decide
    have hnegative : triggerSample 0xFFFB#16 = 0 := by decide
    have hover : triggerSample 20000#16 = 16384 := by decide
    simp only [shapeTrigger, hreleased, hnegative, hover]
    exact ⟨dzscale_of_le (Nat.zero_le tdz), dzscale_of_le (Nat.zero_le tdz), dzscale_full (by omega)⟩

/-! ### The button command (R101) -/

/-- Format `XB` reserves exactly the bits of the immediate above bit 0. -/
theorem and_reservedMask_xb (op idx : BitVec 8) (imm : BitVec 16) :
    (op ++ idx ++ imm) &&& Format.xb.reservedMask = 0#16 ++ (imm &&& ~~~1#16) := by
  have hmask : Format.xb.reservedMask = 0#16 ++ ~~~1#16 := rfl
  rw [hmask, BitVec.and_append, BitVec.and_zero]

/-- An immediate above 1 has a bit above bit 0. -/
theorem and_not_one_ne_zero {x : BitVec 16} (h : 1 < x.toNat) : x &&& ~~~1#16 ≠ 0#16 := by
  intro hzero
  have hbit : x = x &&& 1#16 := by
    calc x = x &&& (1#16 ||| ~~~1#16) := by rw [BitVec.or_not_self, BitVec.and_allOnes]
      _ = x &&& 1#16 := by rw [BitVec.and_or_distrib_left, hzero, BitVec.or_zero]
  have hle : x.toNat ≤ 1 := by
    rw [hbit, BitVec.toNat_and]
    exact Nat.and_le_right
  omega

/-- A word of format `XB` with an immediate above 1 is reserved. -/
theorem decode_xb_reserved {op idx : BitVec 8} {row : OpRow} {imm : BitVec 16} (hrow : findRow op = some row)
    (hformat : row.format = .xb) (himm : 1 < imm.toNat) : decode (op ++ idx ++ imm) = .reserved := by
  have hbits : (op ++ idx ++ imm) &&& Format.xb.reservedMask ≠ 0#32 := by
    rw [and_reservedMask_xb]
    exact fun h => and_not_one_ne_zero himm ((BitVec.append_right_inj 0#16).mp h)
  simp [decode, Laws.opField_append, hrow, hformat, hbits]

/-- A button state below the opcode of `CH.BTN` and a channel number is the operand of a `CH.BTN`. -/
theorem decode_chBtn (c : BitVec 8) (p : Bool) :
    decode (0x21#8 ++ c ++ (BitVec.ofBool p).setWidth 16) = .command (.chBtn c.toNat p) := by
  have hbit : ((BitVec.ofBool p).setWidth 16).getLsbD 0 = p := by simp
  rw [HostAccess.decode_append_of_row (row := ⟨0x21#8, .xb, fun idx imm => .chBtn idx.toNat (imm.getLsbD 0)⟩) rfl
    (Laws.reserved_xb _ _ p)]
  exact congrArg (fun b => Verdict.command (.chBtn c.toNat b)) hbit

/-- `CH.BTN` on a channel stores and answers the value of the button. -/
theorem exec_chBtn (s : State) (c : Fin 16) (p : Bool) :
    exec (.chBtn c.val p) s =
      .next (respond .ok ((buttonOperand p).setWidth 32) { s with ch := s.ch.set c (buttonOperand p) }) := by
  simp only [exec, execChBtn, channelOf_of_lt c.isLt]
  rfl

/-- Settles O42: the arm of `CH.BTN` by whether the channel exists, with the two button states as its operand. -/
theorem chBtnWritesButton : Obligations.ChBtnWritesButton := by
  unfold Obligations.ChBtnWritesButton
  refine ⟨fun c => ⟨decode_chBtn c true, decode_chBtn c false⟩, ?reserved,
    fun s c => ⟨exec_chBtn s c true, exec_chBtn s c false⟩, ?missing, rfl, rfl⟩
  case reserved =>
    exact fun c x hx =>
      decode_xb_reserved (row := ⟨0x21#8, .xb, fun idx imm => .chBtn idx.toNat (imm.getLsbD 0)⟩) rfl rfl hx
  case missing =>
    intro s c p hc
    simp only [exec, execChBtn, channelOf_of_ge hc]
    rfl

end Sys2Proof.ShaperUnit
end

section
/-! SUPPORT. The scheduler unit (`44_scheduler.md`): its four commands, the timebase pulse, the transport results, the wait
point, and what the steps of the block do to `EVT`. -/

namespace Sys2Proof.SchedulerUnit

open Sys2Proof.Machine Sys2Proof.Safety

/-! ### Reversal and `SCH.PUB` (R102, R111) -/

/-- A reversed channel is 2047 minus its value, without wrapping (R102). -/
theorem toNat_reverseChan (reversed : Bool) (v : Chan) :
    (reverseChan reversed v).toNat = if reversed then 2047 - v.toNat else v.toNat := by
  cases reversed
  · rfl
  · have hle : v ≤ 2047#11 := Nat.le_of_lt_succ v.isLt
    exact BitVec.toNat_sub_of_le hle

/-- Reversal undoes itself (R102). -/
theorem reverseChan_reverseChan (reversed : Bool) (v : Chan) : reverseChan reversed (reverseChan reversed v) = v := by
  have hlt : v.toNat < 2048 := v.isLt
  apply BitVec.eq_of_toNat_eq
  rw [toNat_reverseChan, toNat_reverseChan]
  split <;> omega

/-- The reversed vector channel by channel (R111). -/
theorem getElem_reverseVec (rev : BitVec 16) (v : ChanVec) (i : Fin 16) :
    (reverseVec rev v)[i] = reverseChan (rev.getLsbD i.val) v[i] := by
  simp [reverseVec]

/-- Reversing a vector twice by the same mask gives it back. -/
theorem reverseVec_reverseVec (rev : BitVec 16) (v : ChanVec) : reverseVec rev (reverseVec rev v) = v := by
  refine Vector.ext fun i hi => ?_
  simp [reverseVec, reverseChan_reverseChan]

/-- Settles O43: the arm of `SCH.PUB` is its two writes and its one response; the reversal is read channel by channel. -/
theorem schPubPublishes : Obligations.SchPubPublishes := by
  unfold Obligations.SchPubPublishes
  refine ⟨by decide, ?reserved, ?publishes, reverseVec_reverseVec, rfl⟩
  case reserved =>
    exact fun x hx => HostAccess.decode_n_reserved (row := ⟨0x40#8, .n, fun _ _ => .schPub⟩) rfl rfl hx
  case publishes =>
    intro s
    refine ⟨reverseVec s.rev s.ch, fun i => ?_, ?_⟩
    · rw [getElem_reverseVec, toNat_reverseChan]
    · have hprevious : (BitVec.ofBool s.mbxDirty).setWidth 32 = if s.mbxDirty then 1#32 else 0#32 := by
        cases s.mbxDirty <;> rfl
      rw [← hprevious]
      rfl

/-! ### The period and `SCH.START` (R112, R120) -/

/-- Settles O56: the quotient by a rate of 1 to 65535 lies between the quotients by those two. -/
theorem periodOfRate : Obligations.PeriodOfRate := by
  unfold Obligations.PeriodOfRate
  refine ⟨fun s hrate => ⟨rfl, ?least, Nat.div_le_self _ _⟩, ?named⟩
  case least =>
    have hmax : s.rate.toNat < 65536 := s.rate.isLt
    exact (Nat.le_div_iff_mul_le hrate).mpr (show 15 * s.rate.toNat ≤ 1000000 by omega)
  case named =>
    intro s
    simp [period, Config.tbPerSecond]

/-- Settles O44: the two arms of `SCH.START`, by its guard. -/
theorem schStartStartsLoop : Obligations.SchStartStartsLoop := by
  unfold Obligations.SchStartStartsLoop
  refine ⟨by decide, ?reserved, fun s hs => ⟨timerReload s, timerReload_toNat s, if_pos hs⟩, fun s hs => if_neg hs⟩
  case reserved =>
    exact fun x hx => HostAccess.decode_n_reserved (row := ⟨0x41#8, .n, fun _ _ => .schStart⟩) rfl rfl hx

/-! ### `SCH.CANCEL` and `SCH.PCLOSE` (R121, R122) -/

/-- An event followed by a response: the sticky bit, and both outputs in this order (R119, R121). -/
theorem respond_emit (st : Status) (d : Word) (e : Event) (s : State) :
    respond st d (emit e s) =
      { s with evt := s.evt ||| eventBit e, trace := s.trace ++ [.event e, .response st d] } := by
  simp [respond, emit]

/-- Settles O45: the arm of `SCH.CANCEL` in each of the five scheduler states. -/
theorem schCancelCancels : Obligations.SchCancelCancels := by
  unfold Obligations.SchCancelCancels
  refine ⟨by decide, ?reserved, ?atOnce, ?latched, ?cancelled, ?fatal⟩
  case reserved =>
    exact fun x hx => HostAccess.decode_n_reserved (row := ⟨0x42#8, .n, fun _ _ => .schCancel⟩) rfl rfl hx
  case atOnce =>
    rintro s (hs | hs) <;> simp only [exec, execSchCancel, hs, respondSstate_eq, respond_emit] <;> rfl
  case latched | cancelled | fatal =>
    intro s hs
    simp only [exec, execSchCancel, hs, respondSstate_eq]
    rfl

/-- Settles O46: the arm of `SCH.PCLOSE` in each of the five scheduler states. -/
theorem schPcloseCloses : Obligations.SchPcloseCloses := by
  unfold Obligations.SchPcloseCloses
  refine ⟨by decide, ?reserved, ?atOnce, ?latched, ?cancelled, ?fatal⟩
  case reserved =>
    exact fun x hx => HostAccess.decode_n_reserved (row := ⟨0x43#8, .n, fun _ _ => .schPclose⟩) rfl rfl hx
  case atOnce =>
    rintro s (hs | hs) <;> simp only [exec, execSchPclose, hs, respondSstate_eq, respond_emit] <;> rfl
  case latched | cancelled | fatal =>
    intro s hs
    simp only [exec, execSchPclose, hs, respondSstate_eq]
    rfl

/-! ### The timebase pulse (R113, R114) -/

/-- The timer runs in `WAIT` and `SEND` (R110). -/
theorem timerRuns_iff (s : State) : timerRuns s = true ↔ s.sstate = .wait ∨ s.sstate = .send := by
  simp [timerRuns]

/-- A pulse in any other state is ignored (R113). -/
theorem tbStep_of_not_running {s : State} (h : ¬ (s.sstate = .wait ∨ s.sstate = .send)) : tbStep s = s :=
  if_neg (mt (timerRuns_iff s).mp h)

/-- A pulse above 0 counts down (R113). -/
theorem tbStep_of_pos {s : State} (h : s.sstate = .wait ∨ s.sstate = .send) (htmr : s.tmr ≠ 0#20) :
    tbStep s = { s with tmr := s.tmr - 1#20 } := by
  rw [tbStep, if_pos ((timerRuns_iff s).mpr h), if_neg htmr]

/-- A pulse at 0 reloads and ticks (R113). -/
theorem tbStep_of_zero {s : State} (h : s.sstate = .wait ∨ s.sstate = .send) (htmr : s.tmr = 0#20) :
    tbStep s = tick { s with tmr := timerReload s } := by
  rw [tbStep, if_pos ((timerRuns_iff s).mpr h), if_pos htmr]

/-- Settles O47: a pulse by whether the timer runs and stands at 0, and the tick by the state at entry. -/
theorem timebaseStep : Obligations.TimebaseStep := by
  unfold Obligations.TimebaseStep
  simp only [runInput]
  refine ⟨?still, ?counts, ?sends, ?latches⟩
  case still =>
    rintro s (hs | hs | hs) <;> rw [tbStep_of_not_running (by simp [hs])]
  case counts =>
    intro s hs hpos
    have hle : 1#20 ≤ s.tmr := hpos
    have htmr : s.tmr ≠ 0#20 := fun h => by simp [h] at hpos
    exact ⟨s.tmr - 1#20, BitVec.toNat_sub_of_le hle, by rw [tbStep_of_pos hs htmr]⟩
  case sends =>
    intro s hs hzero
    have htick : tbStep s = startSend { s with tmr := timerReload s } :=
      (tbStep_of_zero (.inl hs) (BitVec.eq_of_toNat_eq hzero)).trans (tick_wait hs)
    refine ⟨timerReload s, latest s, Memory.ofBytes (frame (latest s)), timerReload_toNat s, rfl,
      CodecUnit.readBytes_ofBytes_frame _, ?_⟩
    rw [htick, startSend_eq]
    rfl
  case latches =>
    intro s hs hzero
    have htick : tbStep s = { s with tmr := timerReload s, tickPend := true } :=
      (tbStep_of_zero (.inr hs) (BitVec.eq_of_toNat_eq hzero)).trans (tick_send hs)
    exact ⟨timerReload s, timerReload_toNat s, congrArg _ htick⟩

/-! ### The transport results (R116, R117, R123) -/

/-- Settles O51: a result is tested against `SEND` before anything else. -/
theorem strayResultIgnored : Obligations.StrayResultIgnored := by
  unfold Obligations.StrayResultIgnored
  exact fun s ok hs => congrArg Host.Outcome.next (txrStep_of_not_send ok hs)

/-- A success in `SEND` is counted, and then the wait point is reached (R116). -/
theorem runInput_txr_true {s : State} (h : s.sstate = .send) :
    runInput (.txr true) s =
      .next (waitPoint (countStatus { s with failCnt := 0#16, totalSent := s.totalSent + 1#32 })) :=
  congrArg Host.Outcome.next (if_pos h)

/-- A failure in `SEND` is counted, and then the wait point is reached (R117). -/
theorem runInput_txr_false {s : State} (h : s.sstate = .send) :
    runInput (.txr false) s = .next (waitPoint (countFailure s)) :=
  congrArg Host.Outcome.next (if_pos h)

/-- Settles O48: the two counters, then the three ways of counting towards the status summary. -/
theorem transmitSuccess : Obligations.TransmitSuccess := by
  unfold Obligations.TransmitSuccess
  refine ⟨?off, ?due, ?notDue, fun s hs => strayResultIgnored s true hs, fun n => BitVec.toNat_add n 1#32⟩
  case off =>
    intro s hs hivl
    rw [runInput_txr_true hs, countStatus, if_pos hivl]
  case due =>
    intro s hs hivl hdue
    rw [runInput_txr_true hs, countStatus, if_neg hivl, if_pos hdue]
    rfl
  case notDue =>
    intro s hs hivl hlt
    have hsmall : s.statIvl.toNat < 2 ^ 16 := s.statIvl.isLt
    refine ⟨s.statCnt + 1#16, BitVec.toNat_add_of_lt (show s.statCnt.toNat + 1 < 2 ^ 16 by omega), ?_⟩
    rw [runInput_txr_true hs, countStatus, if_neg hivl, if_neg (Nat.not_le.mpr hlt)]

/-- Settles O49: the saturated count, then its comparison with the threshold. -/
theorem transmitFailure : Obligations.TransmitFailure := by
  unfold Obligations.TransmitFailure
  refine ⟨fun s hs => strayResultIgnored s false hs, fun s hs => ⟨failCntNext s, failCntNext_toNat s, ?warns, ?low⟩⟩
  case warns =>
    intro hge
    rw [runInput_txr_false hs, countFailure, if_pos hge]
    rfl
  case low =>
    intro hlt
    rw [runInput_txr_false hs, countFailure, if_neg (Nat.not_le.mpr hlt)]
    rfl

/-! ### The wait point (R118) -/

/-- Settles O50: the three tests of the wait point in their order. -/
theorem waitPointPriority : Obligations.WaitPointPriority := by
  unfold Obligations.WaitPointPriority
  refine ⟨?fatal, ?cancel, ?sends, ?waits⟩
  case fatal => exact fun s hfatal => if_pos hfatal
  case cancel =>
    intro s hfatal hcancel
    rw [waitPoint, if_neg (by simp [hfatal]), if_pos hcancel]
    rfl
  case sends =>
    intro s hfatal hcancel htick
    refine ⟨latest s, Memory.ofBytes (frame (latest s)), rfl, CodecUnit.readBytes_ofBytes_frame _, ?_⟩
    have hsend : waitPoint s = startSend { s with tickPend := false } := by simp [waitPoint, hfatal, hcancel, htick]
    rw [hsend, startSend_eq]
    rfl
  case waits =>
    intro s hfatal hcancel htick
    simp [waitPoint, hfatal, hcancel, htick]

/-! ### Events and their sticky bits (R119) -/

/-- The bits of two lists of outputs one after the other. -/
theorem eventsIn_append (before after : List Output) :
    eventsIn (before ++ after) = eventsIn before ||| eventsIn after := by
  induction before with
  | nil => exact BitVec.zero_or.symm
  | cons o before ih => cases o <;> simp [eventsIn, ih, BitVec.or_assoc]

/-- From `s` to `t` outputs were only added, and `EVT` gained exactly the bits of the events among them (R119). -/
def GainsEvents (s t : State) : Prop :=
  ∃ new, t.trace = s.trace ++ new ∧ t.evt = s.evt ||| eventsIn new

/-- A change of other fields adds no output and no bit. -/
theorem GainsEvents.of_eq {s t : State} (htrace : t.trace = s.trace) (hevt : t.evt = s.evt) : GainsEvents s t :=
  ⟨[], by simp [htrace], by simp [hevt, eventsIn]⟩

/-- Two changes in turn add the outputs of both. -/
theorem GainsEvents.trans {s t u : State} (hst : GainsEvents s t) (htu : GainsEvents t u) : GainsEvents s u := by
  obtain ⟨new, htrace, hevt⟩ := hst
  obtain ⟨new', htrace', hevt'⟩ := htu
  exact ⟨new ++ new', by rw [htrace', htrace, List.append_assoc],
    by rw [hevt', hevt, eventsIn_append, BitVec.or_assoc]⟩

/-- A response after it is no event. -/
theorem GainsEvents.respond {s t : State} (h : GainsEvents s t) (st : Status) (d : Word) :
    GainsEvents s (respond st d t) :=
  h.trans ⟨[.response st d], rfl, BitVec.or_zero.symm⟩

/-- An event after it sets the bit of its name. -/
theorem GainsEvents.emit {s t : State} (h : GainsEvents s t) (e : Event) : GainsEvents s (emit e t) :=
  h.trans ⟨[.event e], rfl, by simp [eventsIn]⟩

/-- A send after it requests a frame, which is no event (R115). -/
theorem GainsEvents.startSend {s t : State} (h : GainsEvents s t) : GainsEvents s (startSend t) :=
  h.trans ⟨[.txReq (frame (latest t))], by rw [startSend_eq]; rfl, by rw [startSend_eq]; exact BitVec.or_zero.symm⟩

/-- The wait point emits at most the event of an exit (R118). -/
theorem gainsEvents_waitPoint (s : State) : GainsEvents s (waitPoint s) := by
  obtain ⟨-, h⟩ | ⟨-, -, h⟩ | ⟨-, -, -, h⟩ | ⟨-, -, -, h⟩ := waitPoint_cases s <;> rw [h]
  · exact .emit (.of_eq rfl rfl) _
  · exact .emit (.of_eq rfl rfl) _
  · exact .startSend (.of_eq rfl rfl)
  · exact .of_eq rfl rfl

/-- Counting a success emits at most the status summary (R116). -/
theorem gainsEvents_countStatus (s : State) : GainsEvents s (countStatus s) := by
  obtain ⟨-, h⟩ | ⟨-, -, h⟩ | ⟨-, -, h⟩ := countStatus_cases s <;> rw [h]
  · exact .of_eq rfl rfl
  · exact .emit (.of_eq rfl rfl) _
  · exact .of_eq rfl rfl

/-- Counting a failure emits the event of its severity (R117). -/
theorem gainsEvents_countFailure (s : State) : GainsEvents s (countFailure s) := by
  obtain ⟨-, h⟩ | ⟨-, h⟩ := countFailure_cases s <;> rw [h] <;> exact .emit (.of_eq rfl rfl) _

/-- A transport result emits what its count and the wait point after it emit. -/
theorem gainsEvents_txrStep (ok : Bool) (s : State) : GainsEvents s (txrStep ok s) := by
  by_cases hs : s.sstate = .send
  · cases ok with
    | false =>
      have hstep : txrStep false s = waitPoint (countFailure s) := if_pos hs
      rw [hstep]
      exact (gainsEvents_countFailure s).trans (gainsEvents_waitPoint _)
    | true =>
      have hstep : txrStep true s =
          waitPoint (countStatus { s with failCnt := 0#16, totalSent := s.totalSent + 1#32 }) := if_pos hs
      have hsent : GainsEvents s { s with failCnt := 0#16, totalSent := s.totalSent + 1#32 } := .of_eq rfl rfl
      rw [hstep]
      exact hsent.trans ((gainsEvents_countStatus _).trans (gainsEvents_waitPoint _))
  · rw [txrStep_of_not_send ok hs]
    exact .of_eq rfl rfl

/-- A timebase pulse emits no event (R113). -/
theorem gainsEvents_tbStep (s : State) : GainsEvents s (tbStep s) := by
  obtain ⟨-, -, h⟩ | ⟨-, -, h⟩ | ⟨-, -, h⟩ | ⟨-, -, h⟩ := tbStep_cases s <;> rw [h]
  · exact .of_eq rfl rfl
  · exact .of_eq rfl rfl
  · exact .startSend (.of_eq rfl rfl)
  · exact .of_eq rfl rfl

/-- A write of any register but `EVT` keeps `EVT` and the trace (R56). -/
theorem gainsEvents_of_regWrite {reg : Reg} {v : BitVec 16} {s t : State} (hreg : reg ≠ .evt)
    (h : regWrite reg v s = some t) : GainsEvents s t := by
  obtain ⟨_, -, rfl⟩ | ⟨_, -, rfl⟩ | ⟨-, rfl⟩ | ⟨-, rfl⟩ | ⟨-, rfl⟩ | ⟨-, rfl⟩ | ⟨-, rfl⟩ | ⟨-, rfl⟩ | ⟨rfl, -⟩ :=
    regWrite_cases h
  case inr.inr.inr.inr.inr.inr.inr.inr => exact absurd rfl hreg
  all_goals exact .of_eq rfl rfl

/-- `EVT` is the register of number 0x37 and of no other (R16, R24). -/
theorem eq_of_regOf_evt {r : Nat} (h : regOf r = some .evt) : r = 0x37 := by
  simpa [HostAccess.registerMap] using HostAccess.mem_registerMap_iff.mpr h

/-- No command but `RESET` and `WR EVT` takes a bit of `EVT` away, and none sets one without its event. -/
theorem gainsEvents_of_exec {i : Instr} {s t : State} (hreset : i ≠ .reset) (hevt : ∀ v, i ≠ .wr 0x37 v)
    (h : exec i s = .next t) : GainsEvents s t := by
  cases i with
  | reset => exact absurd rfl hreset
  | nop | schPub | crcInit | crcUpd | rxClr =>
    cases h
    exact .respond (.of_eq rfl rfl) _ _
  | rd r =>
    obtain ⟨st, d, hrd⟩ := HostAccess.execRd_eq_respond r s
    cases hrd.symm.trans h
    exact .respond (.of_eq rfl rfl) _ _
  | rdm sp off =>
    obtain ⟨st, d, hrdm⟩ := HostAccess.execRdm_eq_respond sp off s
    cases hrdm.symm.trans h
    exact .respond (.of_eq rfl rfl) _ _
  | wr r v =>
    obtain ⟨-, rfl⟩ | ⟨_, -, -, rfl⟩ | ⟨reg, u, hr, hu, rfl⟩ := execWr_cases h
    · exact .respond (.of_eq rfl rfl) _ _
    · exact .respond (.of_eq rfl rfl) _ _
    · have hreg : reg ≠ .evt := by
        rintro rfl
        exact hevt v (congrArg (Instr.wr · v) (eq_of_regOf_evt hr))
      exact .respond (gainsEvents_of_regWrite hreg hu) _ _
  | chSet c v =>
    simp only [exec, execChSet] at h
    split at h <;> cases h <;> exact .respond (.of_eq rfl rfl) _ _
  | chBtn c p =>
    simp only [exec, execChBtn] at h
    split at h <;> cases h <;> exact .respond (.of_eq rfl rfl) _ _
  | enc =>
    obtain ⟨_, _, -, -, rfl⟩ := execEnc_cases h
    exact .respond (.of_eq rfl rfl) _ _
  | dec =>
    obtain ⟨_, -, rfl⟩ := execDec_cases h
    exact .respond (.of_eq rfl rfl) _ _
  | rxPush b => obtain ⟨-, rfl⟩ | ⟨-, rfl⟩ := execRxPush_cases h <;> exact .respond (.of_eq rfl rfl) _ _
  | unpk => obtain ⟨-, rfl⟩ | ⟨-, -, rfl⟩ := execUnpk_cases h <;> exact .respond (.of_eq rfl rfl) _ _
  | shpAx a x => obtain ⟨-, rfl⟩ | ⟨_, _, -, rfl⟩ := execShpAx_cases h <;> exact .respond (.of_eq rfl rfl) _ _
  | shpTrg c x => obtain ⟨-, rfl⟩ | ⟨_, _, -, rfl⟩ := execShpTrg_cases h <;> exact .respond (.of_eq rfl rfl) _ _
  | schStart =>
    simp only [exec, execSchStart] at h
    split at h <;> cases h <;> exact .respond (.of_eq rfl rfl) _ _
  | schCancel =>
    obtain ⟨-, rfl⟩ | ⟨-, rfl⟩ | ⟨-, rfl⟩ | ⟨-, rfl⟩ := execSchCancel_cases h
    · exact .respond (.emit (.of_eq rfl rfl) _) _ _
    all_goals exact .respond (.of_eq rfl rfl) _ _
  | schPclose =>
    obtain ⟨-, rfl⟩ | ⟨-, rfl⟩ | ⟨-, rfl⟩ | ⟨-, rfl⟩ := execSchPclose_cases h
    · exact .respond (.emit (.of_eq rfl rfl) _) _ _
    all_goals exact .respond (.of_eq rfl rfl) _ _

/-- A word is its three fields (R43). -/
theorem append_fields (w : Word) : opField w ++ idxField w ++ immField w = w := by
  have hhigh : opField w ++ idxField w = w.extractLsb' 16 16 :=
    BitVec.extractLsb'_append_extractLsb'_eq_extractLsb' rfl
  rw [hhigh]
  exact BitVec.extractLsb'_append_extractLsb' (w := 16) (len := 16)

/-- Only a word of the form 0x0337 and an immediate is `WR EVT` (R24, R46). -/
theorem eq_of_decode_wr_evt {w : Word} {v : BitVec 16} (h : decode w = .command (.wr 0x37 v)) :
    w = 0x0337#16 ++ v := by
  have hop : opField w = 0x03#8 := by
    obtain ⟨_, -, hop, -⟩ := HostAccess.row_of_decode h
    exact hop
  have hfields := append_fields w
  rw [hop] at hfields
  generalize idxField w = idx, immField w = imm at hfields
  subst hfields
  rw [Encoding.decode_wr] at h
  obtain ⟨hidx, rfl⟩ := Instr.wr.inj (Verdict.command.inj h)
  obtain rfl : idx = 0x37#8 := BitVec.eq_of_toNat_eq hidx
  rfl

/-- No word but those of `RESET` and `WR EVT` takes a bit of `EVT` away, and none sets one without its event. -/
theorem gainsEvents_of_runWord {w : Word} {s t : State} (hreset : w ≠ 0x01000000#32)
    (hevt : ∀ v : BitVec 16, w ≠ 0x0337#16 ++ v) (h : runWord w s = .next t) : GainsEvents s t := by
  cases hd : decode w with
  | illegal =>
    cases (Encoding.runWord_of_illegal hd s).symm.trans h
    exact .respond (.of_eq rfl rfl) _ _
  | reserved =>
    cases (Encoding.runWord_of_reserved hd s).symm.trans h
    exact .respond (.of_eq rfl rfl) _ _
  | command i =>
    rw [Encoding.runWord_of_command hd] at h
    refine gainsEvents_of_exec ?_ ?_ h
    · rintro rfl
      exact hreset (HostAccess.eq_of_decode_reset hd)
    · rintro v rfl
      exact hevt v (eq_of_decode_wr_evt hd)

/-- Settles O57: every operation that emits an event sets its bit, and no input but the two excluded clears one. -/
theorem eventsSetStickyBits : Obligations.EventsSetStickyBits := by
  unfold Obligations.EventsSetStickyBits
  refine ⟨⟨rfl, rfl, rfl, rfl, rfl⟩, fun s t inp h hpin hreset hevt => ?_⟩
  change GainsEvents s t
  cases inp with
  | hreset => exact absurd rfl hpin
  | txr ok =>
    cases h
    exact gainsEvents_txrStep ok s
  | tb =>
    cases h
    exact gainsEvents_tbStep s
  | command w =>
    exact gainsEvents_of_runWord (fun hw => hreset (congrArg _ hw)) (fun v hw => hevt v (congrArg _ hw)) h

end Sys2Proof.SchedulerUnit
end

section
/-! SUPPORT. The interrupt line, the completion of every step and the status of every command word (`60_exceptions.md`): checks 3
to 5 of R134 as checks of the command a word decodes to, what a command answers at the first of them that fails, and that no
operation of the scheduler adds a response. -/

namespace Sys2Proof.Exceptions

open Sys2Proof.Machine Sys2Proof.Safety

/-! ### The interrupt line (R133) -/

/-- A bit vector is not zero exactly when it has a bit that is 1. -/
theorem ne_zero_iff_exists_getLsbD {w : Nat} (x : BitVec w) : x ≠ 0#w ↔ ∃ k, k < w ∧ x.getLsbD k = true := by
  constructor
  · intro hne
    by_contra hnone
    push Not at hnone
    exact hne (BitVec.eq_of_getLsbD_eq fun k hk => by simpa using hnone k hk)
  · rintro ⟨k, -, hk⟩ rfl
    simp at hk

/-- Settles O58: the line is the test of `EVT & IEN` against 0, which is a test of its bits. -/
theorem irqIsEnabledEvent : Obligations.IrqIsEnabledEvent := by
  unfold Obligations.IrqIsEnabledEvent
  refine ⟨fun s => ?_, fun s hien => ?_⟩
  · rw [irq, decide_eq_true_iff, ne_zero_iff_exists_getLsbD]
    simp only [BitVec.getLsbD_and, Bool.and_eq_true]
  · simp [irq, hien]

/-! ### Outputs without a response -/

/-- From `s` to `t` outputs were only added, and none of them is a response. -/
def AddsNoResponse (s t : State) : Prop :=
  ∃ evs, t.trace = s.trace ++ evs ∧ evs.all (fun o => !isResponse o) = true

/-- A change of other fields adds no output. -/
theorem AddsNoResponse.of_eq {s t : State} (htrace : t.trace = s.trace) : AddsNoResponse s t :=
  ⟨[], by simp [htrace], rfl⟩

/-- Two changes in turn add the outputs of both. -/
theorem AddsNoResponse.trans {s t u : State} (hst : AddsNoResponse s t) (htu : AddsNoResponse t u) :
    AddsNoResponse s u := by
  obtain ⟨evs, htrace, hevs⟩ := hst
  obtain ⟨evs', htrace', hevs'⟩ := htu
  exact ⟨evs ++ evs', by rw [htrace', htrace, List.append_assoc], by rw [List.all_append, hevs, hevs', Bool.and_self]⟩

/-- An event is no response. -/
theorem AddsNoResponse.emit {s t : State} (h : AddsNoResponse s t) (e : Event) : AddsNoResponse s (emit e t) :=
  h.trans ⟨[.event e], rfl, rfl⟩

/-- A send requests a frame, which is no response (R115). -/
theorem AddsNoResponse.startSend {s t : State} (h : AddsNoResponse s t) : AddsNoResponse s (startSend t) :=
  h.trans ⟨[.txReq (frame (latest t))], by rw [startSend_eq]; rfl, rfl⟩

/-- The wait point adds no response (R118). -/
theorem addsNoResponse_waitPoint (s : State) : AddsNoResponse s (waitPoint s) := by
  obtain ⟨-, h⟩ | ⟨-, -, h⟩ | ⟨-, -, -, h⟩ | ⟨-, -, -, h⟩ := waitPoint_cases s <;> rw [h]
  · exact .emit (.of_eq rfl) _
  · exact .emit (.of_eq rfl) _
  · exact .startSend (.of_eq rfl)
  · exact .of_eq rfl

/-- Counting a success adds no response (R116). -/
theorem addsNoResponse_countStatus (s : State) : AddsNoResponse s (countStatus s) := by
  obtain ⟨-, h⟩ | ⟨-, -, h⟩ | ⟨-, -, h⟩ := countStatus_cases s <;> rw [h]
  · exact .of_eq rfl
  · exact .emit (.of_eq rfl) _
  · exact .of_eq rfl

/-- Counting a failure adds no response (R117). -/
theorem addsNoResponse_countFailure (s : State) : AddsNoResponse s (countFailure s) := by
  obtain ⟨-, h⟩ | ⟨-, h⟩ := countFailure_cases s <;> rw [h] <;> exact .emit (.of_eq rfl) _

/-- A transport result adds no response (R116, R117, R123). -/
theorem addsNoResponse_txrStep (ok : Bool) (s : State) : AddsNoResponse s (txrStep ok s) := by
  by_cases hs : s.sstate = .send
  · cases ok with
    | false =>
      have hstep : txrStep false s = waitPoint (countFailure s) := if_pos hs
      rw [hstep]
      exact (addsNoResponse_countFailure s).trans (addsNoResponse_waitPoint _)
    | true =>
      have hstep : txrStep true s =
          waitPoint (countStatus { s with failCnt := 0#16, totalSent := s.totalSent + 1#32 }) := if_pos hs
      have hsent : AddsNoResponse s { s with failCnt := 0#16, totalSent := s.totalSent + 1#32 } := .of_eq rfl
      rw [hstep]
      exact hsent.trans ((addsNoResponse_countStatus _).trans (addsNoResponse_waitPoint _))
  · rw [txrStep_of_not_send ok hs]
    exact .of_eq rfl

/-- A timebase pulse adds no response (R113). -/
theorem addsNoResponse_tbStep (s : State) : AddsNoResponse s (tbStep s) := by
  obtain ⟨-, -, h⟩ | ⟨-, -, h⟩ | ⟨-, -, h⟩ | ⟨-, -, h⟩ := tbStep_cases s <;> rw [h]
  · exact .of_eq rfl
  · exact .of_eq rfl
  · exact .startSend (.of_eq rfl)
  · exact .of_eq rfl

/-- No register write adds an output (R56). -/
theorem regWrite_trace {reg : Reg} {v : BitVec 16} {s t : State} (h : regWrite reg v s = some t) :
    t.trace = s.trace := by
  obtain ⟨_, -, rfl⟩ | ⟨_, -, rfl⟩ | ⟨-, rfl⟩ | ⟨-, rfl⟩ | ⟨-, rfl⟩ | ⟨-, rfl⟩ | ⟨-, rfl⟩ | ⟨-, rfl⟩ | ⟨-, rfl⟩ :=
    regWrite_cases h <;> rfl

/-! ### The checks of R134 on a command -/

/-- Check 3 of R134: the register, space, element, channel or axis a command names exists. -/
def indexNames : Instr → Bool
  | .rd r | .wr r _ => registerExists r
  | .rdm sp off => decide (off < spaceSizes.getD sp 0)
  | .chSet c _ | .chBtn c _ | .shpTrg c _ => decide (c ≤ 15)
  | .shpAx a _ => decide (a ≤ 3)
  | .nop | .reset | .crcInit | .crcUpd _ | .enc | .rxClr | .rxPush _ | .dec | .unpk
  | .schPub | .schStart | .schCancel | .schPclose => true

/-- Check 4 of R134 fails: the command writes a register that is read-only. -/
def writesReadOnly : Instr → Bool
  | .wr r _ => registerReadOnly r
  | .nop | .reset | .rd _ | .rdm _ _ | .crcInit | .crcUpd _ | .chSet _ _ | .chBtn _ _ | .enc | .rxClr | .rxPush _
  | .dec | .unpk | .shpAx _ _ | .shpTrg _ _ | .schPub | .schStart | .schCancel | .schPclose => false

/-- Check 5 of R134: the precondition of `SCH.START` or `UNPK` holds. -/
def isReady (s : State) : Instr → Bool
  | .schStart => decide (s.sstate = .stopped)
  | .unpk => s.dvalid && decide (22 ≤ s.rplen.toNat)
  | .nop | .reset | .rd _ | .wr _ _ | .rdm _ _ | .crcInit | .crcUpd _ | .chSet _ _ | .chBtn _ _ | .enc | .rxClr
  | .rxPush _ | .dec | .shpAx _ _ | .shpTrg _ _ | .schPub | .schCancel | .schPclose => true

/-- On a word with the opcode of a row, the three checks of the statement are those of the command the row makes (R46, R134). -/
theorem checks_of_row {w : Word} {row : OpRow} (hmem : row ∈ opcodeMap) (hop : opField w = row.op) (s : State) :
    indexExists w = indexNames (row.make (idxField w) (immField w)) ∧
    ((opField w).toNat = 0x03 ∧ registerReadOnly (idxField w).toNat = true ↔
      writesReadOnly (row.make (idxField w) (immField w)) = true) ∧
    preconditionHolds w s = isReady s (row.make (idxField w) (immField w)) := by
  have hfield : w.extractLsb' 24 8 = row.op := hop
  simp only [indexExists, preconditionHolds, hop, hfield, idxField, immField]
  generalize w.extractLsb' 16 8 = idx, w.extractLsb' 0 16 = imm
  clear hop hfield
  revert row
  simp [opcodeMap, hostRows, crcRows, codecRows, shaperRows, schedRows, indexNames, writesReadOnly, isReady]

/-- A word with a known opcode and no reserved bit set is the command its row makes of its fields (R46, R52). -/
theorem exists_row_of_lookup {w mask : Word} (h : opcodeMasks.lookup (opField w) = some mask)
    (hbits : w &&& mask = 0#32) :
    ∃ row ∈ opcodeMap, opField w = row.op ∧ decode w = .command (row.make (idxField w) (immField w)) := by
  rw [Encoding.lookup_opcodeMasks, Option.map_eq_some_iff] at h
  obtain ⟨row, hrow, rfl⟩ := h
  have hop : row.op = opField w := by simpa using List.find?_some hrow
  exact ⟨row, List.mem_of_find?_eq_some hrow, hop.symm, by simp [decode, hrow, hbits]⟩

/-- The status of a word with an undefined opcode is `ILLEGAL` (R134). -/
theorem statusOf_of_lookup_none {w : Word} (h : opcodeMasks.lookup (opField w) = none) (s : State) :
    statusOf w s = .illegal := by
  have hfield : opcodeMasks.lookup (w.extractLsb' 24 8) = none := h
  rw [statusOf, hfield]

/-- The status of a word with a known opcode, by the four checks that are left (R134). -/
theorem statusOf_of_lookup_some {w mask : Word} (h : opcodeMasks.lookup (opField w) = some mask) (s : State) :
    statusOf w s =
      if w &&& mask ≠ 0#32 then .rsvd
      else if indexExists w = false then .badIdx
      else if (opField w).toNat = 0x03 ∧ registerReadOnly (idxField w).toNat then .rdOnly
      else if preconditionHolds w s = false then .refused
      else .ok := by
  have hfield : opcodeMasks.lookup (w.extractLsb' 24 8) = some mask := h
  rw [statusOf, hfield]
  rfl

/-! ### What a command answers at its checks -/

/-- A command that names what does not exist answers `BADIDX` 0 and changes nothing else (R47, R134). -/
theorem exec_of_not_indexNames {i : Instr} (h : indexNames i = false) (s : State) :
    exec i s = .next (respond .badIdx 0#32 s) := by
  cases i with
  | rd r => exact execRd_of_none (HostAccess.regOf_of_not_exists h)
  | wr r v => exact HostAccess.exec_wr_of_none (HostAccess.regOf_of_not_exists h)
  | rdm sp off => exact HostAccess.exec_rdm_of_size_le (Nat.not_lt.mp (of_decide_eq_false h))
  | chSet c v => simp only [exec, execChSet, channelOf_of_ge (Nat.not_le.mp (of_decide_eq_false h)), failWith_eq]
  | chBtn c p => simp only [exec, execChBtn, channelOf_of_ge (Nat.not_le.mp (of_decide_eq_false h)), failWith_eq]
  | shpTrg c x => simp only [exec, execShpTrg, channelOf_of_ge (Nat.not_le.mp (of_decide_eq_false h)), failWith_eq]
  | shpAx a x => simp only [exec, execShpAx, axisOf_of_ge (Nat.not_le.mp (of_decide_eq_false h)), failWith_eq]
  | nop | reset | crcInit | crcUpd | enc | rxClr | rxPush | dec | unpk | schPub | schStart | schCancel | schPclose =>
    cases h

/-- A write of a read-only register answers `RDONLY` 0 and changes nothing else (R56, R134). -/
theorem exec_of_writesReadOnly {i : Instr} (h : writesReadOnly i = true) (s : State) :
    exec i s = .next (respond .rdOnly 0#32 s) := by
  cases i with
  | wr r v =>
    obtain ⟨reg, hreg, hwrite⟩ := HostAccess.regWrite_of_readOnly h v s
    exact HostAccess.exec_wr_of_readOnly hreg hwrite
  | nop | reset | rd | rdm | crcInit | crcUpd | chSet | chBtn | enc | rxClr | rxPush | dec | unpk | shpAx | shpTrg
  | schPub | schStart | schCancel | schPclose => cases h

/-- A command whose precondition is false answers `REFUSED` 0 and changes nothing else (R81, R120, R134). -/
theorem exec_of_not_isReady {i : Instr} {s : State} (h : isReady s i = false) :
    exec i s = .next (respond .refused 0#32 s) := by
  cases i with
  | schStart => exact if_neg (of_decide_eq_false h)
  | unpk =>
    rw [isReady, Bool.and_eq_false_iff, decide_eq_false_iff_not, Nat.not_le] at h
    exact if_pos h
  | nop | reset | rd | wr | rdm | crcInit | crcUpd | chSet | chBtn | enc | rxClr | rxPush | dec | shpAx | shpTrg
  | schPub | schCancel | schPclose => cases h

/-- The existing register numbers that are not read-only name registers that can be written (R16, R56). -/
theorem regWrite_of_writable {r : Nat} (hexists : registerExists r = true) (hwritable : registerReadOnly r = false)
    (v : BitVec 16) (s : State) : ∃ reg t, regOf r = some reg ∧ regWrite reg v s = some t := by
  have hrange : (0x10 ≤ r ∧ r ≤ 0x1D) ∨ (0x37 ≤ r ∧ r ≤ 0x37) := by
    simp [registerExists, registerReadOnly] at hexists hwritable
    omega
  obtain ⟨hlo, hhi⟩ | ⟨hlo, hhi⟩ := hrange <;> interval_cases r <;> exact ⟨_, _, rfl, rfl⟩

/-- The outcome of a command that completes: the response `OK` on a state reached without another response. -/
def Completes (s : State) (o : Host.Outcome State Fault Refusal) : Prop :=
  ∃ d t, o = .next (respond .ok d t) ∧ AddsNoResponse s t

/-- A command all of whose checks pass completes (R47, R134). -/
theorem completes_of_checks {i : Instr} {s : State} (hindex : indexNames i = true) (hwritable : writesReadOnly i = false)
    (hready : isReady s i = true) : Completes s (exec i s) := by
  cases i with
  | nop | reset | crcInit | crcUpd | enc | rxClr | dec | schPub => exact ⟨_, _, rfl, .of_eq rfl⟩
  | rd r =>
    obtain ⟨reg, hreg⟩ := Option.isSome_iff_exists.mp ((HostAccess.registerExists_eq_isSome r).symm.trans hindex)
    exact ⟨_, _, execRd_of_some hreg, .of_eq rfl⟩
  | wr r v =>
    obtain ⟨reg, t, hreg, hwrite⟩ := regWrite_of_writable hindex hwritable v s
    exact ⟨_, _, HostAccess.exec_wr_of_some hreg hwrite, .of_eq (regWrite_trace hwrite)⟩
  | rdm sp off =>
    have hoff : off < ((spaceOf sp).map spaceSize).getD 0 :=
      (of_decide_eq_true hindex).trans_eq (HostAccess.spaceSizes_getD sp)
    cases hsp : spaceOf sp with
    | none =>
      rw [hsp] at hoff
      exact absurd hoff (Nat.not_lt_zero off)
    | some space =>
      rw [hsp] at hoff
      exact ⟨_, _, HostAccess.exec_rdm_of_lt hsp hoff rfl, .of_eq rfl⟩
  | chSet c v =>
    have hc : c < 16 := Nat.lt_succ_of_le (of_decide_eq_true hindex)
    simp only [exec, execChSet, channelOf_of_lt hc]
    exact ⟨_, _, rfl, .of_eq rfl⟩
  | chBtn c p => exact ⟨_, _, ShaperUnit.exec_chBtn s ⟨c, Nat.lt_succ_of_le (of_decide_eq_true hindex)⟩ p, .of_eq rfl⟩
  | shpAx a x =>
    exact ⟨_, _, ShaperUnit.exec_shpAx s ⟨a, Nat.lt_succ_of_le (of_decide_eq_true hindex)⟩ x rfl, .of_eq rfl⟩
  | shpTrg c x =>
    exact ⟨_, _, ShaperUnit.exec_shpTrg s ⟨c, Nat.lt_succ_of_le (of_decide_eq_true hindex)⟩ x rfl, .of_eq rfl⟩
  | rxPush b =>
    by_cases hfull : s.rxlen = 64#7
    · exact ⟨_, _, if_pos hfull, .of_eq rfl⟩
    · exact ⟨_, _, if_neg hfull, .of_eq rfl⟩
  | unpk =>
    have hguard : ¬ (s.dvalid = false ∨ s.rplen.toNat < 22) := by simpa [isReady] using hready
    exact ⟨_, _, if_neg hguard, .of_eq rfl⟩
  | schStart => exact ⟨_, _, if_pos (of_decide_eq_true hready), .of_eq rfl⟩
  | schCancel =>
    simp only [exec, execSchCancel]
    split
    case h_1 | h_2 => exact ⟨_, _, rfl, .emit (.of_eq rfl) _⟩
    all_goals exact ⟨_, _, rfl, .of_eq rfl⟩
  | schPclose =>
    simp only [exec, execSchPclose]
    split
    case h_1 | h_2 => exact ⟨_, _, rfl, .emit (.of_eq rfl) _⟩
    all_goals exact ⟨_, _, rfl, .of_eq rfl⟩

/-! ### What every word answers (R47, R130, R134) -/

/-- The outcome of a word that answers with a status: one response, the last output, and with a status that is not `OK` nothing
else. -/
def AnswersWith (st : Status) (s : State) (o : Host.Outcome State Fault Refusal) : Prop :=
  ∃ t evs d, o = .next t ∧ t.trace = s.trace ++ evs ++ [.response st d] ∧
    evs.all (fun out => !isResponse out) = true ∧ (st ≠ .ok → d = 0#32 ∧ t = respond st 0#32 s)

/-- A failure is its response alone (R136). -/
theorem answersWith_of_failure {st : Status} {s : State} {o : Host.Outcome State Fault Refusal}
    (h : o = .next (respond st 0#32 s)) : AnswersWith st s o :=
  ⟨_, [], 0#32, h, by simp, rfl, fun _ => ⟨rfl, rfl⟩⟩

/-- A command that completes answers `OK`. -/
theorem Completes.answersWith {s : State} {o : Host.Outcome State Fault Refusal} (h : Completes s o) :
    AnswersWith .ok s o := by
  obtain ⟨d, t, ho, evs, htrace, hevs⟩ := h
  exact ⟨_, evs, d, ho, by rw [respond_trace, htrace], hevs, fun hne => absurd rfl hne⟩

/-- A command answers with the status of the first of its three checks that fails (R134). -/
theorem exec_answersWith (i : Instr) (s : State) :
    AnswersWith
      (if indexNames i = false then .badIdx
        else if writesReadOnly i = true then .rdOnly
        else if isReady s i = false then .refused
        else .ok) s (exec i s) := by
  split
  · exact answersWith_of_failure (exec_of_not_indexNames ‹_› s)
  split
  · exact answersWith_of_failure (exec_of_writesReadOnly ‹_› s)
  split
  · exact answersWith_of_failure (exec_of_not_isReady ‹_›)
  · rename_i hindex hwritable hready
    exact (completes_of_checks (Bool.eq_true_of_not_eq_false hindex) (Bool.eq_false_of_not_eq_true hwritable)
      (Bool.eq_true_of_not_eq_false hready)).answersWith

/-- Every word answers with the status of the first check of R134 that fails, in every state. -/
theorem runWord_answersWith_statusOf (w : Word) (s : State) : AnswersWith (statusOf w s) s (runWord w s) := by
  cases hl : opcodeMasks.lookup (opField w) with
  | none =>
    rw [statusOf_of_lookup_none hl]
    exact answersWith_of_failure (Encoding.runWord_of_illegal (Encoding.decode_of_lookup_none hl) s)
  | some mask =>
    rw [statusOf_of_lookup_some hl]
    by_cases hbits : w &&& mask = 0#32
    · obtain ⟨row, hmem, hop, hd⟩ := exists_row_of_lookup hl hbits
      obtain ⟨hindex, hreadOnly, hready⟩ := checks_of_row hmem hop s
      rw [if_neg (not_not.mpr hbits), hindex, hready, Encoding.runWord_of_command hd]
      simp only [hreadOnly]
      exact exec_answersWith _ s
    · rw [if_pos hbits]
      exact answersWith_of_failure (Encoding.runWord_of_reserved (Encoding.decode_of_reserved hl hbits) s)

/-- The environment's steps complete and add no response (R130). -/
theorem runInput_of_not_command {inp : Input} (h : ∀ w, inp ≠ .command w) (s : State) :
    ∃ t, runInput inp s = .next t ∧ AddsNoResponse s t := by
  cases inp with
  | hreset => exact ⟨_, rfl, .of_eq rfl⟩
  | txr ok => exact ⟨_, rfl, addsNoResponse_txrStep ok s⟩
  | tb => exact ⟨_, rfl, addsNoResponse_tbStep s⟩
  | command w => exact absurd rfl (h w)

/-- Every input leads to a next state (R130). -/
theorem exists_runInput_eq_next (inp : Input) (s : State) : ∃ t, runInput inp s = .next t := by
  by_cases h : ∃ w, inp = .command w
  · obtain ⟨w, rfl⟩ := h
    obtain ⟨t, _, _, ht, -⟩ := runWord_answersWith_statusOf w s
    exact ⟨t, ht⟩
  · obtain ⟨t, ht, -⟩ := runInput_of_not_command (not_exists.mp h) s
    exact ⟨t, ht⟩

/-- Every step leads to a next state (R130). -/
theorem exists_step_eq_next (s : State) : ∃ t, step s = .next t := by
  unfold step
  split
  · exact ⟨s, rfl⟩
  · exact exists_runInput_eq_next _ _

/-- Settles O6: a word answers with its status, which is a failure's only output, and the scheduler's operations add events and
frame requests only. -/
theorem everyStepCompletes : Obligations.EveryStepCompletes := by
  unfold Obligations.EveryStepCompletes
  refine ⟨exists_step_eq_next, fun w s => ?word, fun inp s henv => ?environment⟩
  case word =>
    obtain ⟨t, evs, d, ht, htrace, hevs, hfail⟩ := runWord_answersWith_statusOf w s
    exact ⟨t, evs, statusOf w s, d, ht, htrace, hevs, hfail⟩
  case environment =>
    obtain ⟨t, ht, evs, htrace, hevs⟩ := runInput_of_not_command henv s
    exact ⟨t, evs, ht, htrace, hevs⟩

/-! ### The checks of `DEC` and the statuses (R131, R134) -/

/-- The error code of the frame check is the first check of the table of R131 that fails (R75). -/
theorem err_decodeFrame (buf : List Byte) :
    (decodeFrame buf).err =
      if buf.length < 4 then .short else if buf.getD 0 0#8 ≠ 0xC8#8 then .sync
      else if (buf.getD 1 0#8).toNat < 2 ∨ 62 < (buf.getD 1 0#8).toNat then .len
      else if buf.length < 2 + (buf.getD 1 0#8).toNat then .trunc
      else if crc8 ((buf.drop 1).take (buf.getD 1 0#8).toNat) ≠ buf.getD (1 + (buf.getD 1 0#8).toNat) 0#8 then .crc
      else .ok := by
  simp only [decodeFrame, apply_ite DecodeResult.err]
  rfl

/-- Settles O7: the status of every word is the answer of the first failing check; `DEC` records the frame check's code. -/
theorem statusIsFirstFailingCheck : Obligations.StatusIsFirstFailingCheck := by
  unfold Obligations.StatusIsFirstFailingCheck
  refine ⟨fun w s => ?status, fun s => ?examples, fun s => ?dec, rfl, rfl, rfl, rfl, rfl, rfl⟩
  case status =>
    obtain ⟨t, evs, d, ht, htrace, -, -⟩ := runWord_answersWith_statusOf w s
    exact ⟨t, evs, d, ht, htrace⟩
  case examples => exact ⟨rfl, rfl, rfl, rfl⟩
  case dec => exact ⟨_, CodecUnit.exec_dec s, err_decodeFrame (rxBytes s)⟩

end Sys2Proof.Exceptions
end

section
/-! SUPPORT. The reset pin (`70_reset_and_hazards.md`): what the step that takes it leaves, and the derived values `WARN` and
`PERIOD` at the reset values. -/

namespace Sys2Proof.ResetUnit

open Sys2Proof.Machine Sys2Proof.Safety

/-- A step runs the input it takes, on the state that still has the remaining inputs presented (R6, R135). -/
theorem step_of_takeInput {s : State} {inp : Input} {rest : List Arrival} (h : takeInput s.inputs = some (inp, rest)) :
    step s = runInput inp { s with inputs := rest } := by
  rw [step, h]

/-- The step that takes the reset pin resets the block (R140). -/
theorem step_of_takeInput_hreset {s : State} {rest : List Arrival} (h : takeInput s.inputs = some (.hreset, rest)) :
    step s = .next (resetBlock { s with inputs := rest }) := by
  rw [step_of_takeInput h, runInput, hresetStep]

/-- The reset state is a fixed point of the block's reset. -/
theorem resetBlock_reset : resetBlock State.reset = State.reset := rfl

/-- At the reset rate of 250 frames a second the period is 4000 pulses (R112, R140). -/
theorem period_of_atResetValues {s : State} (h : AtResetValues s) : period s = 4000 := by
  rw [period, h.rate]
  rfl

/-- At the reset values no failure is counted and the threshold is 10, so `WARN` is 0 (R21, R140). -/
theorem warn_of_atResetValues {s : State} (h : AtResetValues s) : warn s = false := by
  rw [warn, h.failThr, h.failCnt]
  rfl

/-- Settles O11: the step is the block's reset, which puts everything at its reset value but the inputs still presented and the
trace; the interrupt line, `PERIOD` and `WARN` follow from the reset values. -/
theorem hresetGivesResetValues : Obligations.HresetGivesResetValues := by
  unfold Obligations.HresetGivesResetValues
  refine ⟨fun s rest hin => ?pin, ?initial⟩
  case pin =>
    have hreset := HostAccess.atResetValues_resetBlock { s with inputs := rest }
    exact ⟨_, step_of_takeInput_hreset hin, hreset, rfl, rfl, HostAccess.irq_of_atResetValues hreset,
      period_of_atResetValues hreset, warn_of_atResetValues hreset⟩
  case initial => exact resetBlock_reset ▸ HostAccess.atResetValues_resetBlock State.reset

end Sys2Proof.ResetUnit
end

section
/-! SUPPORT. Decoder and encoder undo each other (`30_encoding.md` section 8): what the word of a command decodes to, and what
the word a command was decoded from must be, format by format. -/

namespace Sys2Proof.RoundTrip

open Sys2Proof.Machine Sys2Proof.Safety Sys2Proof.Laws

/-! ### From a command to its word and back -/

/-- The word of every command has the command's fields, and no bit its format reserves (R44, R46). -/
theorem encodeFields : ∀ i : Instr, EncodeFields.Statement i
  | .nop => EncodeFields.nop
  | .reset => EncodeFields.reset
  | .rd r => EncodeFields.rd r
  | .wr r v => EncodeFields.wr r v
  | .rdm sp off => EncodeFields.rdm sp off
  | .crcInit => EncodeFields.crcInit
  | .crcUpd b => EncodeFields.crcUpd b
  | .chSet c v => EncodeFields.chSet c v
  | .chBtn c p => EncodeFields.chBtn c p
  | .enc => EncodeFields.enc
  | .rxClr => EncodeFields.rxClr
  | .rxPush b => EncodeFields.rxPush b
  | .dec => EncodeFields.dec
  | .unpk => EncodeFields.unpk
  | .shpAx a x => EncodeFields.shpAx a x
  | .shpTrg c x => EncodeFields.shpTrg c x
  | .schPub => EncodeFields.schPub
  | .schStart => EncodeFields.schStart
  | .schCancel => EncodeFields.schCancel
  | .schPclose => EncodeFields.schPclose

/-- An index that fits its field is not cut by it. -/
theorem toNat_ofNat_of_fitsIdx {n : Nat} (h : fitsIdx n = true) : (BitVec.ofNat 8 n).toNat = n :=
  (BitVec.toNat_ofNat n 8).trans (Nat.mod_eq_of_lt (of_decide_eq_true h))

/-- An offset that fits its field is not cut by it. -/
theorem toNat_ofNat_of_fitsImm {n : Nat} (h : fitsImm n = true) : (BitVec.ofNat 16 n).toNat = n :=
  (BitVec.toNat_ofNat n 16).trans (Nat.mod_eq_of_lt (of_decide_eq_true h))

/-- A byte zero-extended to an immediate is the immediate's low byte. -/
theorem extractLsb'_setWidth_byte (b : Byte) : (b.setWidth 16).extractLsb' 0 8 = b := by
  rw [BitVec.extractLsb'_setWidth_of_le (by decide), BitVec.extractLsb'_eq_self]

/-- A flag zero-extended to an immediate is the immediate's bit 0. -/
theorem getLsbD_setWidth_ofBool (p : Bool) : ((BitVec.ofBool p).setWidth 16).getLsbD 0 = p := by
  cases p <;> rfl

/-- The row of a well-formed command makes the command of the operands the encoder writes (R46). -/
theorem make_operands {i : Instr} {row : OpRow} (hrow : findRow i.opcode = some row) (hwf : i.wellFormed = true) :
    row.make i.idxOperand i.immOperand = i := by
  cases i with
  | nop | reset | crcInit | enc | rxClr | dec | unpk | schPub | schStart | schCancel | schPclose =>
    cases hrow
    rfl
  | rd r =>
    cases hrow
    exact congrArg Instr.rd (toNat_ofNat_of_fitsIdx hwf)
  | wr r v =>
    cases hrow
    exact congrArg (Instr.wr · v) (toNat_ofNat_of_fitsIdx hwf)
  | rdm sp off =>
    cases hrow
    obtain ⟨hsp, hoff⟩ := Bool.and_eq_true_iff.mp hwf
    exact congrArg₂ Instr.rdm (toNat_ofNat_of_fitsIdx hsp) (toNat_ofNat_of_fitsImm hoff)
  | crcUpd b =>
    cases hrow
    exact congrArg Instr.crcUpd (extractLsb'_setWidth_byte b)
  | rxPush b =>
    cases hrow
    exact congrArg Instr.rxPush (extractLsb'_setWidth_byte b)
  | chSet c v =>
    cases hrow
    exact congrArg (Instr.chSet · v) (toNat_ofNat_of_fitsIdx hwf)
  | chBtn c p =>
    cases hrow
    exact congrArg₂ Instr.chBtn (toNat_ofNat_of_fitsIdx hwf) (getLsbD_setWidth_ofBool p)
  | shpAx a x =>
    cases hrow
    exact congrArg (Instr.shpAx · x) (toNat_ofNat_of_fitsIdx hwf)
  | shpTrg c x =>
    cases hrow
    exact congrArg (Instr.shpTrg · x) (toNat_ofNat_of_fitsIdx hwf)

/-- Settles O1: the word has the fields of its command and a clear reserved part, so it decodes to what the command's row makes of
them, which is the command. -/
theorem decodeInvertsEncode : Obligations.DecodeInvertsEncode := by
  unfold Obligations.DecodeInvertsEncode
  intro i hwf
  obtain ⟨-, -, -, row, hrow, hbits⟩ := encodeFields i hwf
  have hdecode : decode (encode i) = .command (row.make i.idxOperand i.immOperand) :=
    HostAccess.decode_append_of_row hrow hbits
  rw [hdecode, make_operands hrow hwf]

/-! ### From a word to its command and back -/

/-- A word that is a command is the command's opcode before the two fields its row makes the command of, and no bit the row
reserves is set. -/
theorem fields_of_decode {w : Word} {i : Instr} {row : OpRow} (h : decode w = .command i)
    (hrow : findRow i.opcode = some row) : ∃ idx imm, w = i.opcode ++ idx ++ imm ∧ i = row.make idx imm ∧
      (i.opcode ++ idx ++ imm) &&& row.format.reservedMask = 0#32 := by
  obtain ⟨found, hfound, hop, hbits⟩ := HostAccess.row_of_decode h
  obtain rfl : row = found := Option.some.inj (hrow.symm.trans hfound)
  have hword : w = i.opcode ++ idxField w ++ immField w := by
    rw [← hop, SchedulerUnit.append_fields]
  refine ⟨idxField w, immField w, hword, ?_, hword ▸ hbits⟩
  have hmade : decode w = .command (row.make (idxField w) (immField w)) := by
    simp [decode, hop, hrow, hbits]
  exact Verdict.command.inj (h.symm.trans hmade)

/-- A word of format `X` with no reserved bit set has no immediate. -/
theorem imm_of_clear_x {op idx : BitVec 8} {imm : BitVec 16}
    (h : (op ++ idx ++ imm) &&& Format.x.reservedMask = 0#32) : imm = 0#16 := by
  rw [HostAccess.and_reservedMask_x] at h
  exact (BitVec.append_right_inj 0#16).mp h

/-- A word of format `I8` with no reserved bit set has no index, and an immediate that is its low byte. -/
theorem fields_of_clear_i8 {op idx : BitVec 8} {imm : BitVec 16}
    (h : (op ++ idx ++ imm) &&& Format.i8.reservedMask = 0#32) :
    idx = 0#8 ∧ imm = (imm.extractLsb' 0 8).setWidth 16 := by
  have himm : imm = imm.extractLsb' 8 8 ++ imm.extractLsb' 0 8 :=
    (BitVec.extractLsb'_append_extractLsb' (w := 8) (len := 8)).symm
  have hword : op ++ idx ++ imm = op ++ (idx ++ imm.extractLsb' 8 8) ++ imm.extractLsb' 0 8 := by
    calc op ++ idx ++ imm
        = op ++ idx ++ (imm.extractLsb' 8 8 ++ imm.extractLsb' 0 8) := congrArg (op ++ idx ++ ·) himm
      _ = op ++ idx ++ imm.extractLsb' 8 8 ++ imm.extractLsb' 0 8 := BitVec.append_assoc.symm
      _ = op ++ (idx ++ imm.extractLsb' 8 8) ++ imm.extractLsb' 0 8 :=
        congrArg (· ++ imm.extractLsb' 0 8) BitVec.append_assoc
  rw [hword, CrcUnit.and_reservedMask_i8] at h
  have hmid : idx ++ imm.extractLsb' 8 8 = 0#8 ++ 0#8 :=
    (BitVec.append_right_inj 0#8).mp ((BitVec.append_left_inj 0#8).mp h)
  have hidx : idx = 0#8 := by
    rw [← BitVec.extractLsb'_append_eq_left (a := idx) (b := imm.extractLsb' 8 8), hmid]
    rfl
  have hhigh : imm.extractLsb' 8 8 = 0#8 := (BitVec.append_right_inj 0#8).mp (hidx ▸ hmid)
  refine ⟨hidx, ?_⟩
  calc imm = 0#8 ++ imm.extractLsb' 0 8 := by rw [← hhigh]; exact himm
    _ = (imm.extractLsb' 0 8).setWidth 16 := (BitVec.setWidth_eq_append (by decide)).symm

/-- A word of format `XB` with no reserved bit set has an immediate that is its bit 0. -/
theorem imm_of_clear_xb {op idx : BitVec 8} {imm : BitVec 16}
    (h : (op ++ idx ++ imm) &&& Format.xb.reservedMask = 0#32) : imm = (BitVec.ofBool (imm.getLsbD 0)).setWidth 16 := by
  rw [ShaperUnit.and_reservedMask_xb] at h
  have hsmall : imm.toNat ≤ 1 :=
    Nat.not_lt.mp fun hlarge => ShaperUnit.and_not_one_ne_zero hlarge ((BitVec.append_right_inj 0#16).mp h)
  obtain hzero | hone := Nat.le_one_iff_eq_zero_or_eq_one.mp hsmall
  · obtain rfl : imm = 0#16 := BitVec.eq_of_toNat_eq hzero
    rfl
  · obtain rfl : imm = 1#16 := BitVec.eq_of_toNat_eq hone
    rfl

/-- A word is the command's word if the encoder writes its two fields. -/
theorem encode_eq {i : Instr} {idx : BitVec 8} {imm : BitVec 16} (hidx : i.idxOperand = idx) (himm : i.immOperand = imm) :
    encode i = i.opcode ++ idx ++ imm := by
  rw [encode, hidx, himm]

/-- A field read as a number is written back as it was read. -/
theorem ofNat_toNat_field {n : Nat} (x : BitVec n) : BitVec.ofNat n x.toNat = x :=
  (BitVec.ofNat_toNat n x).trans (BitVec.setWidth_eq x)

/-- An index read from its field fits it. -/
theorem fitsIdx_toNat (idx : BitVec 8) : fitsIdx idx.toNat = true := decide_eq_true idx.isLt

/-- An offset read from its field fits it. -/
theorem fitsImm_toNat (imm : BitVec 16) : fitsImm imm.toNat = true := decide_eq_true imm.isLt

/-- Settles O2: the row of the command makes it of the word's two fields; a field the format has is written back as it was read,
and the rest of the word is reserved and clear. -/
theorem encodeInvertsDecode : Obligations.EncodeInvertsDecode := by
  unfold Obligations.EncodeInvertsDecode
  intro w i h
  cases i with
  | nop | reset | crcInit | enc | rxClr | dec | unpk | schPub | schStart | schCancel | schPclose =>
    rw [CrcUnit.eq_of_decode_n h rfl rfl]
    exact ⟨rfl, rfl⟩
  | rd r =>
    obtain ⟨idx, imm, rfl, hmade, hclear⟩ := fields_of_decode h rfl
    obtain rfl := Instr.rd.inj hmade
    exact ⟨encode_eq (ofNat_toNat_field idx) (imm_of_clear_x hclear).symm, fitsIdx_toNat idx⟩
  | wr | chSet | shpAx | shpTrg =>
    obtain ⟨idx, imm, rfl, hmade, -⟩ := fields_of_decode h rfl
    cases hmade
    exact ⟨encode_eq (ofNat_toNat_field idx) rfl, fitsIdx_toNat idx⟩
  | rdm sp off =>
    obtain ⟨idx, imm, rfl, hmade, -⟩ := fields_of_decode h rfl
    cases hmade
    exact ⟨encode_eq (ofNat_toNat_field idx) (ofNat_toNat_field imm),
      Bool.and_eq_true_iff.mpr ⟨fitsIdx_toNat idx, fitsImm_toNat imm⟩⟩
  | crcUpd | rxPush =>
    obtain ⟨idx, imm, rfl, hmade, hclear⟩ := fields_of_decode h rfl
    cases hmade
    obtain ⟨hidx, himm⟩ := fields_of_clear_i8 hclear
    exact ⟨encode_eq hidx.symm himm.symm, rfl⟩
  | chBtn c p =>
    obtain ⟨idx, imm, rfl, hmade, hclear⟩ := fields_of_decode h rfl
    cases hmade
    exact ⟨encode_eq (ofNat_toNat_field idx) (imm_of_clear_xb hclear).symm, fitsIdx_toNat idx⟩

/-- Settles O4: the seven words are evaluated. -/
theorem sampleWordsDecode : Obligations.SampleWordsDecode := by
  unfold Obligations.SampleWordsDecode
  decide

end Sys2Proof.RoundTrip
end

section
/-! SUPPORT. The datapath and the scheduler side by side (`20_memory.md` section 6): what the environment's steps leave to the
datapath, and two runs of one step from states the scheduler cannot tell apart. -/

namespace Sys2Proof.Interference

open Sys2Proof.Machine Sys2Proof.Safety

/-- Everything `start_send` does, by the vector it sends (R115). -/
theorem startSend_eq_latest (s : State) :
    startSend s = { s with
      out := latest s
      mbxDirty := false
      txbuf := Memory.ofBytes (frame (latest s))
      sstate := .send
      trace := s.trace ++ [.txReq (frame (latest s))] } :=
  startSend_eq s

/-- A buffer rewritten with a frame is canonical, has the frame's size, and reads as the frame. -/
theorem frame_buffer {m : Memory} {v : ChanVec} (hm : m = Memory.ofBytes (frame v)) :
    m.wf = true ∧ m.within 26 = true ∧ m.readBytes 0 26 = frame v := by
  rw [hm]
  exact ⟨Memory.wf_ofBytes _, Memory.within_ofBytes (length_frame v).le, CodecUnit.readBytes_ofBytes_frame v⟩

/-- A success taken in `SEND` is counted, and then the wait point is reached (R116). -/
theorem txrStep_true {s : State} (h : s.sstate = .send) :
    txrStep true s = waitPoint (countStatus { s with failCnt := 0#16, totalSent := s.totalSent + 1#32 }) := if_pos h

/-- A failure taken in `SEND` is counted, and then the wait point is reached (R117). -/
theorem txrStep_false {s : State} (h : s.sstate = .send) : txrStep false s = waitPoint (countFailure s) := if_pos h

/-! ### What the scheduler leaves to the datapath (R38) -/

/-- Two changes in turn that leave the datapath as it was. -/
theorem sameForDatapath_trans {s t u : State} (hst : SameForDatapath s t) (htu : SameForDatapath t u) :
    SameForDatapath s u := by
  constructor
  case ch => exact hst.ch.trans htu.ch
  case uch => exact hst.uch.trans htu.uch
  case ebuf => exact hst.ebuf.trans htu.ebuf
  case rxbuf => exact hst.rxbuf.trans htu.rxbuf
  case dz => exact hst.dz.trans htu.dz
  case expo => exact hst.expo.trans htu.expo
  case tdz => exact hst.tdz.trans htu.tdz
  case rev => exact hst.rev.trans htu.rev
  case crc => exact hst.crc.trans htu.crc
  case shpY => exact hst.shpY.trans htu.shpY
  case rxlen => exact hst.rxlen.trans htu.rxlen
  case evalid => exact hst.evalid.trans htu.evalid
  case dvalid => exact hst.dvalid.trans htu.dvalid
  case rxovf => exact hst.rxovf.trans htu.rxovf
  case derr => exact hst.derr.trans htu.derr
  case rtype => exact hst.rtype.trans htu.rtype
  case rplen => exact hst.rplen.trans htu.rplen

/-- A send writes nothing of the datapath (R115). -/
theorem sameForDatapath_startSend (s : State) : SameForDatapath s (startSend s) := by
  rw [startSend_eq_latest]
  constructor <;> rfl

/-- The wait point writes nothing of the datapath (R118). -/
theorem sameForDatapath_waitPoint (s : State) : SameForDatapath s (waitPoint s) := by
  obtain ⟨-, h⟩ | ⟨-, -, h⟩ | ⟨-, -, -, h⟩ | ⟨-, -, -, h⟩ := waitPoint_cases s <;> rw [h]
  case inr.inr.inl =>
    have hpend : SameForDatapath s { s with tickPend := false } := by constructor <;> rfl
    exact sameForDatapath_trans hpend (sameForDatapath_startSend _)
  all_goals constructor <;> rfl

/-- Counting a success writes nothing of the datapath (R116). -/
theorem sameForDatapath_countStatus (s : State) : SameForDatapath s (countStatus s) := by
  obtain ⟨-, h⟩ | ⟨-, -, h⟩ | ⟨-, -, h⟩ := countStatus_cases s <;> rw [h] <;> constructor <;> rfl

/-- Counting a failure writes nothing of the datapath (R117). -/
theorem sameForDatapath_countFailure (s : State) : SameForDatapath s (countFailure s) := by
  obtain ⟨-, h⟩ | ⟨-, h⟩ := countFailure_cases s <;> rw [h] <;> constructor <;> rfl

/-- A transport result writes nothing of the datapath (R116, R117, R123). -/
theorem sameForDatapath_txrStep (ok : Bool) (s : State) : SameForDatapath s (txrStep ok s) := by
  by_cases hs : s.sstate = .send
  · cases ok with
    | false =>
      rw [txrStep_false hs]
      exact sameForDatapath_trans (sameForDatapath_countFailure s) (sameForDatapath_waitPoint _)
    | true =>
      have hsent : SameForDatapath s { s with failCnt := 0#16, totalSent := s.totalSent + 1#32 } := by
        constructor <;> rfl
      rw [txrStep_true hs]
      exact sameForDatapath_trans hsent
        (sameForDatapath_trans (sameForDatapath_countStatus _) (sameForDatapath_waitPoint _))
  · rw [txrStep_of_not_send ok hs]
    constructor <;> rfl

/-- A timebase pulse writes nothing of the datapath (R113). -/
theorem sameForDatapath_tbStep (s : State) : SameForDatapath s (tbStep s) := by
  obtain ⟨-, -, h⟩ | ⟨-, -, h⟩ | ⟨-, -, h⟩ | ⟨-, -, h⟩ := tbStep_cases s <;> rw [h]
  case inr.inr.inl =>
    have htmr : SameForDatapath s { s with tmr := timerReload s } := by constructor <;> rfl
    exact sameForDatapath_trans htmr (sameForDatapath_startSend _)
  all_goals constructor <;> rfl

/-! ### Two runs the scheduler cannot tell apart (R38) -/

/-- From `s` and `s'` two runs have come to `t` and `t'`, which the scheduler cannot tell apart, with the same new outputs. -/
structure RunsAlike (s s' t t' : State) : Prop where
  scheduler : SameForScheduler t t'
  outputs : ∃ new, t.trace = s.trace ++ new ∧ t'.trace = s'.trace ++ new

section
variable {s s' t t' : State}

/-- Two runs that have not begun. -/
theorem RunsAlike.start (h : SameForScheduler s s') : RunsAlike s s' s s' :=
  ⟨h, [], (List.append_nil _).symm, (List.append_nil _).symm⟩

/-- Both runs emit the same event. -/
theorem RunsAlike.emit (h : RunsAlike s s' t t') (e : Event) : RunsAlike s s' (emit e t) (emit e t') := by
  obtain ⟨same, new, ht, ht'⟩ := h
  refine ⟨{ same with evt := ?_ }, new ++ [.event e], ?_, ?_⟩
  · rw [emit_evt, emit_evt, same.evt]
  · rw [emit_trace, ht, List.append_assoc]
  · rw [emit_trace, ht', List.append_assoc]

/-- Both runs send the same vector (R115). -/
theorem RunsAlike.startSend (h : RunsAlike s s' t t') : RunsAlike s s' (startSend t) (startSend t') := by
  obtain ⟨same, new, ht, ht'⟩ := h
  have hlatest : latest t' = latest t := by simp only [latest, same.mbxDirty, same.mbx, same.out]
  rw [startSend_eq_latest, startSend_eq_latest, hlatest, ht, ht', List.append_assoc, List.append_assoc]
  exact ⟨{ same with out := rfl, mbxDirty := rfl, txbuf := rfl, sstate := rfl }, _, rfl, rfl⟩

/-- Both runs take the same branch of a test that has the same outcome in both. -/
theorem RunsAlike.ite {c c' : Prop} [Decidable c] [Decidable c'] {u u' : State} (hc : c ↔ c')
    (hpos : RunsAlike s s' t t') (hneg : RunsAlike s s' u u') :
    RunsAlike s s' (if c then t else u) (if c' then t' else u') := by
  by_cases h : c
  · rwa [if_pos h, if_pos (hc.mp h)]
  · rwa [if_neg h, if_neg (mt hc.mpr h)]

/-- Both runs leave the wait point the same way (R118). -/
theorem RunsAlike.waitPoint (h : RunsAlike s s' t t') : RunsAlike s s' (waitPoint t) (waitPoint t') := by
  obtain ⟨same, outputs⟩ := h
  refine .ite (by rw [same.fatalPend]) ?fatal (.ite (by rw [same.cancelPend]) ?cancel
    (.ite (by rw [same.tickPend]) ?send ?wait))
  case fatal =>
    refine .emit ?_ _
    exact ⟨{ same with sstate := rfl, tickPend := rfl, cancelPend := rfl, fatalPend := rfl }, outputs⟩
  case cancel =>
    refine .emit ?_ _
    exact ⟨{ same with sstate := rfl, tickPend := rfl, cancelPend := rfl }, outputs⟩
  case send => exact .startSend ⟨{ same with tickPend := rfl }, outputs⟩
  case wait => exact ⟨{ same with sstate := rfl }, outputs⟩

/-- Both runs count a success the same way (R116). -/
theorem RunsAlike.countStatus (h : RunsAlike s s' t t') : RunsAlike s s' (countStatus t) (countStatus t') := by
  obtain ⟨same, outputs⟩ := h
  refine .ite (by rw [same.statIvl]) ?off (.ite (by rw [same.statIvl, same.statCnt]) ?due ?notDue)
  case off => exact ⟨{ same with statCnt := rfl }, outputs⟩
  case due =>
    refine .emit ?_ _
    exact ⟨{ same with statCnt := rfl }, outputs⟩
  case notDue => exact ⟨{ same with statCnt := congrArg (· + 1#16) same.statCnt }, outputs⟩

/-- Both runs count a failure the same way (R117). -/
theorem RunsAlike.countFailure (h : RunsAlike s s' t t') : RunsAlike s s' (countFailure t) (countFailure t') := by
  obtain ⟨same, outputs⟩ := h
  have hcount : failCntNext t = failCntNext t' := by simp only [failCntNext, same.failCnt]
  have hcounted : RunsAlike s s' { t with failCnt := failCntNext t } { t' with failCnt := failCntNext t' } :=
    ⟨{ same with failCnt := hcount }, outputs⟩
  exact .ite (by rw [same.failThr, hcount]) (hcounted.emit _) (hcounted.emit _)

/-- Both runs tick the same way (R114). -/
theorem RunsAlike.tick (h : RunsAlike s s' t t') : RunsAlike s s' (tick t) (tick t') := by
  have hstate := h.scheduler.sstate
  cases hs : t.sstate with
  | wait => rw [tick_wait hs, tick_wait (hstate ▸ hs)]; exact h.startSend
  | send =>
    rw [tick_send hs, tick_send (hstate ▸ hs)]
    exact ⟨{ h.scheduler with tickPend := rfl }, h.outputs⟩
  | stopped | exitCancel | exitFatal =>
    have hidle : Machine.tick t = t := by rw [Machine.tick, hs]
    have hidle' : Machine.tick t' = t' := by rw [Machine.tick, ← hstate, hs]
    rwa [hidle, hidle']

/-- Both runs take a transport result the same way (R116, R117, R123). -/
theorem RunsAlike.txrStep (h : SameForScheduler s s') (ok : Bool) : RunsAlike s s' (txrStep ok s) (txrStep ok s') := by
  by_cases hs : s.sstate = .send
  · have hs' : s'.sstate = .send := h.sstate.symm.trans hs
    cases ok with
    | false =>
      rw [txrStep_false hs, txrStep_false hs']
      exact (RunsAlike.start h).countFailure.waitPoint
    | true =>
      rw [txrStep_true hs, txrStep_true hs', h.totalSent]
      have hsent : RunsAlike s s' { s with failCnt := 0#16, totalSent := s'.totalSent + 1#32 }
          { s' with failCnt := 0#16, totalSent := s'.totalSent + 1#32 } :=
        ⟨{ h with failCnt := rfl, totalSent := rfl }, (RunsAlike.start h).outputs⟩
      exact hsent.countStatus.waitPoint
  · have hs' : s'.sstate ≠ .send := h.sstate ▸ hs
    rw [txrStep_of_not_send ok hs, txrStep_of_not_send ok hs']
    exact .start h

/-- Both runs take a timebase pulse the same way (R113, R114). -/
theorem RunsAlike.tbStep (h : SameForScheduler s s') : RunsAlike s s' (tbStep s) (tbStep s') := by
  obtain ⟨same, outputs⟩ := RunsAlike.start h
  have hruns : timerRuns s = timerRuns s' := by simp only [timerRuns, h.sstate]
  have hreload : timerReload s = timerReload s' := by simp only [timerReload, period, h.rate]
  refine .ite (by rw [hruns]) (.ite (by rw [h.tmr]) (.tick ?reload) ?count) ⟨same, outputs⟩
  case reload => exact ⟨{ same with tmr := hreload }, outputs⟩
  case count => exact ⟨{ same with tmr := congrArg (· - 1#20) h.tmr }, outputs⟩

end

/-- Settles O59: the environment's steps take two states alike for the scheduler to two alike with the same outputs, and write
nothing of the datapath; the datapath's commands write nothing of the scheduler. -/
theorem datapathAndSchedulerDoNotInterfere : Obligations.DatapathAndSchedulerDoNotInterfere := by
  unfold Obligations.DatapathAndSchedulerDoNotInterfere
  refine ⟨fun s s' t t' inp hinp hsame ht ht' => ?environment, ?commands⟩
  case environment =>
    obtain rfl | ⟨ok, rfl⟩ := hinp
    · cases ht
      cases ht'
      obtain ⟨scheduler, outputs⟩ := RunsAlike.tbStep hsame
      exact ⟨scheduler, sameForDatapath_tbStep s, outputs⟩
    · cases ht
      cases ht'
      obtain ⟨scheduler, outputs⟩ := RunsAlike.txrStep hsame ok
      exact ⟨scheduler, sameForDatapath_txrStep ok s, outputs⟩
  case commands => exact fun s t i hi h => HostAccess.sameForScheduler_of_isDatapath hi h

end Sys2Proof.Interference
end

section
/-! SUPPORT. The order of inputs and the scheduler loop (`60_exceptions.md` section 4, `44_scheduler.md` section 8): which input a
step takes, the transition table, and what only the loop writes. -/

namespace Sys2Proof.Loop

open Sys2Proof.Machine Sys2Proof.Safety Sys2Proof.Interference

/-! ### Which input a step takes -/

/-- A step runs the first input of the instants presented. -/
theorem step_of_inputs {s : State} {arrivals rest : List Arrival} {inp : Input} (hin : s.inputs = arrivals)
    (htake : takeInput arrivals = some (inp, rest)) : step s = runInput inp { s with inputs := rest } :=
  ResetUnit.step_of_takeInput (hin ▸ htake)

/-- Settles O5: a step runs the input it takes, and the word `withFetchWord` presents is the one it takes. -/
theorem stepRunsDecodedCommand : Obligations.StepRunsDecodedCommand := by
  unfold Obligations.StepRunsDecodedCommand
  have hcommand (s : State) (w : Word) (rest : List Arrival) (i : Instr)
      (hin : takeInput s.inputs = some (.command w, rest)) (hd : decode w = .command i) :
      step s = exec i { s with inputs := rest } :=
    (ResetUnit.step_of_takeInput hin).trans (Encoding.runWord_of_command hd _)
  refine ⟨hcommand, fun s inp rest hin => ResetUnit.step_of_takeInput hin, ?idle, ?fetched⟩
  case idle =>
    intro s hin
    rw [step, hin]
  case fetched => exact fun s w i hd => hcommand (s.withFetchWord 32 w) _ s.inputs i rfl hd

/-! ### Outputs without a frame request -/

/-- From `s` to `t` outputs were only added, and none of them is a `TX_REQ`. -/
def AddsNoRequest (s t : State) : Prop :=
  ∃ new, t.trace = s.trace ++ new ∧ new.filter isTxReq = []

/-- A change of other fields adds no output. -/
theorem AddsNoRequest.of_eq {s t : State} (htrace : t.trace = s.trace) : AddsNoRequest s t :=
  ⟨[], by rw [htrace, List.append_nil], rfl⟩

/-- Two changes in turn add the outputs of both. -/
theorem AddsNoRequest.trans {s t u : State} (hst : AddsNoRequest s t) (htu : AddsNoRequest t u) : AddsNoRequest s u := by
  obtain ⟨new, htrace, hnew⟩ := hst
  obtain ⟨new', htrace', hnew'⟩ := htu
  exact ⟨new ++ new', by rw [htrace', htrace, List.append_assoc], by rw [List.filter_append, hnew, hnew']; rfl⟩

/-- An event is no request. -/
theorem AddsNoRequest.emit {s t : State} (h : AddsNoRequest s t) (e : Event) : AddsNoRequest s (emit e t) :=
  h.trans ⟨[.event e], rfl, rfl⟩

/-- A response is no request. -/
theorem AddsNoRequest.respond {s t : State} (h : AddsNoRequest s t) (st : Status) (d : Word) :
    AddsNoRequest s (respond st d t) :=
  h.trans ⟨[.response st d], rfl, rfl⟩

/-! ### Counting a result (R116, R117) -/

/-- From `s` to `u` a result was counted: the counters, the events and their bits may have changed, and nothing else of the
scheduler. -/
structure Counted (s u : State) : Prop where
  mbx : u.mbx = s.mbx
  out : u.out = s.out
  txbuf : u.txbuf = s.txbuf
  mbxDirty : u.mbxDirty = s.mbxDirty
  sstate : u.sstate = s.sstate
  tickPend : u.tickPend = s.tickPend
  cancelPend : u.cancelPend = s.cancelPend
  fatalPend : u.fatalPend = s.fatalPend
  statIvl : u.statIvl = s.statIvl
  tmr : u.tmr = s.tmr
  inputs : u.inputs = s.inputs
  quiet : AddsNoRequest s u

/-- A success counted. -/
theorem counted_success (s : State) :
    Counted s (countStatus { s with failCnt := 0#16, totalSent := s.totalSent + 1#32 }) := by
  obtain ⟨-, h⟩ | ⟨-, -, h⟩ | ⟨-, -, h⟩ :=
    countStatus_cases { s with failCnt := 0#16, totalSent := s.totalSent + 1#32 } <;> rw [h]
  case inr.inl => exact ⟨rfl, rfl, rfl, rfl, rfl, rfl, rfl, rfl, rfl, rfl, rfl, .emit (.of_eq rfl) _⟩
  all_goals exact ⟨rfl, rfl, rfl, rfl, rfl, rfl, rfl, rfl, rfl, rfl, rfl, .of_eq rfl⟩

/-- A failure counted. -/
theorem counted_failure (s : State) : Counted s (countFailure s) := by
  obtain ⟨-, h⟩ | ⟨-, h⟩ := countFailure_cases s <;> rw [h] <;>
    exact ⟨rfl, rfl, rfl, rfl, rfl, rfl, rfl, rfl, rfl, rfl, rfl, .emit (.of_eq rfl) _⟩

/-- A result taken in `SEND` is counted, and then the wait point is reached. -/
theorem txrStep_of_send (ok : Bool) {s : State} (hs : s.sstate = .send) :
    ∃ u, txrStep ok s = waitPoint u ∧ Counted s u := by
  cases ok with
  | false => exact ⟨_, txrStep_false hs, counted_failure s⟩
  | true => exact ⟨_, txrStep_true hs, counted_success s⟩

/-- A counted result leaves the vector the next send takes. -/
theorem Counted.latest {s u : State} (h : Counted s u) : latest u = latest s := by
  simp only [Safety.latest, h.mbxDirty, h.mbx, h.out]

/-! ### The order of simultaneous inputs (R135) -/

/-- After a reset the pulse finds `STOPPED` and does nothing (R110, R113). -/
theorem runInput_tb_of_atResetValues {s : State} (h : AtResetValues s) : runInput .tb s = .next s := by
  have hidle : ¬ (s.sstate = .wait ∨ s.sstate = .send) := by simp [h.sstate]
  rw [runInput, SchedulerUnit.tbStep_of_not_running hidle]

/-- A pulse at the wait point with the timer at 0 sends the latest vector (R113 to R115). -/
theorem runInput_tb_of_wait {s : State} (hs : s.sstate = .wait) (htmr : s.tmr = 0#20) :
    runInput .tb s = .next (startSend { s with tmr := timerReload s }) := by
  have htick : tick { s with tmr := timerReload s } = startSend { s with tmr := timerReload s } := tick_wait hs
  rw [runInput, SchedulerUnit.tbStep_of_zero (.inl hs) htmr, htick]

/-- A step that takes the word of `SCH.PUB` publishes the staging vector (R111). -/
theorem step_schPub {s : State} {later : List Arrival} (hin : s.inputs = Arrival.ofCommand 0x40000000#32 :: later) :
    step s = .next (respond .ok ((BitVec.ofBool s.mbxDirty).setWidth 32)
      { s with inputs := later, mbx := reverseVec s.rev s.ch, mbxDirty := true }) := by
  have hd : decode 0x40000000#32 = .command .schPub := by decide
  rw [step_of_inputs hin (takeInput_command _ _), runInput, Encoding.runWord_of_command hd]
  rfl

/-- Settles O8: each step takes the first input of its instant; what the next one then finds is `STOPPED` after a reset, the wait
point after a result with nothing pending, and the vector already taken after a tick. -/
theorem simultaneousInputsInOrder : Obligations.SimultaneousInputsInOrder := by
  unfold Obligations.SimultaneousInputsInOrder
  refine ⟨fun s ok w later hin => ?allFour, fun s ok later hin hs htmr hfatal hcancel htick => ?resultFirst,
    fun s later hin hs htmr => ?tickFirst⟩
  case allFour =>
    have hreset (rest : List Arrival) : AtResetValues (resetBlock { s with inputs := rest }) :=
      HostAccess.atResetValues_resetBlock _
    have htxr := HostAccess.runInput_txr_of_atResetValues (hreset (⟨false, none, true, some w⟩ :: later)) ok
    have htb := runInput_tb_of_atResetValues (hreset (⟨false, none, false, some w⟩ :: later))
    obtain ⟨t, ht⟩ := Exceptions.exists_runInput_eq_next (.command w) (resetBlock { s with inputs := later })
    exact ⟨_, _, _, t, step_of_inputs hin rfl, (step_of_inputs rfl rfl).trans htxr, (step_of_inputs rfl rfl).trans htb,
      (step_of_inputs rfl rfl).trans ht, rfl, htxr, htb, ht, hreset _⟩
  case resultFirst =>
    obtain ⟨u, hstep, hu⟩ := txrStep_of_send ok (s := { s with inputs := ⟨false, none, true, none⟩ :: later }) hs
    have hwait : waitPoint u = { u with sstate := .wait } := by
      simp [waitPoint, hu.fatalPend, hu.cancelPend, hu.tickPend, hfatal, hcancel, htick]
    have hfirst : step s = .next { u with sstate := .wait } := by
      rw [step_of_inputs hin rfl, runInput, hstep, hwait]
    have hsecond : step { u with sstate := .wait } = .next (startSend { u with
        sstate := .wait, inputs := ⟨false, none, false, none⟩ :: later, tmr := timerReload u }) :=
      (step_of_inputs (s := { u with sstate := .wait }) hu.inputs rfl).trans
        (runInput_tb_of_wait rfl (hu.tmr.trans htmr))
    rw [startSend_eq_latest] at hsecond
    exact ⟨_, _, hfirst, hsecond, rfl, rfl, hu.tickPend.trans htick, hu.latest,
      congrArg (fun v => u.trace ++ [.txReq (frame v)]) hu.latest⟩
  case tickFirst =>
    have hfirst := runInput_tb_of_wait (s := { s with inputs := ⟨false, none, false, some 0x40000000#32⟩ :: later }) hs htmr
    rw [startSend_eq_latest] at hfirst
    exact ⟨_, _, (step_of_inputs hin rfl).trans hfirst, step_schPub rfl, rfl, rfl, rfl, rfl⟩

/-! ### What commands leave to the loop -/

/-- From `s` to `t` nothing that only the loop writes has changed, and no frame was requested. -/
structure LeavesLoop (s t : State) : Prop where
  failCnt : t.failCnt = s.failCnt
  totalSent : t.totalSent = s.totalSent
  statCnt : t.statCnt = s.statCnt
  txbuf : t.txbuf = s.txbuf
  out : t.out = s.out
  quiet : AddsNoRequest s t

/-- A change of other fields. -/
theorem LeavesLoop.of_eq {s t : State} (hfail : t.failCnt = s.failCnt) (htotal : t.totalSent = s.totalSent)
    (hstat : t.statCnt = s.statCnt) (htxbuf : t.txbuf = s.txbuf) (hout : t.out = s.out) (htrace : t.trace = s.trace) :
    LeavesLoop s t :=
  ⟨hfail, htotal, hstat, htxbuf, hout, .of_eq htrace⟩

/-- A response after it. -/
theorem LeavesLoop.respond {s t : State} (h : LeavesLoop s t) (st : Status) (d : Word) : LeavesLoop s (respond st d t) :=
  { h with quiet := h.quiet.respond st d }

/-- An event after it. -/
theorem LeavesLoop.emit {s t : State} (h : LeavesLoop s t) (e : Event) : LeavesLoop s (emit e t) :=
  { h with quiet := h.quiet.emit e }

/-- A register write leaves the loop (R16, R56). -/
theorem leavesLoop_of_regWrite {reg : Reg} {v : BitVec 16} {s t : State} (h : regWrite reg v s = some t) :
    LeavesLoop s t := by
  obtain ⟨_, -, rfl⟩ | ⟨_, -, rfl⟩ | ⟨-, rfl⟩ | ⟨-, rfl⟩ | ⟨-, rfl⟩ | ⟨-, rfl⟩ | ⟨-, rfl⟩ | ⟨-, rfl⟩ | ⟨-, rfl⟩ :=
    regWrite_cases h <;> exact .of_eq rfl rfl rfl rfl rfl rfl

/-- A command of the CRC, codec or shaper unit adds its response and no other output. -/
theorem quiet_of_isDatapath {i : Instr} {s t : State} (hi : isDatapath i = true) (h : exec i s = .next t) :
    AddsNoRequest s t := by
  cases i with
  | crcInit | crcUpd | rxClr =>
    cases h
    exact .respond (.of_eq rfl) _ _
  | chSet c v =>
    simp only [exec, execChSet] at h
    split at h <;> cases h <;> exact .respond (.of_eq rfl) _ _
  | chBtn c p =>
    simp only [exec, execChBtn] at h
    split at h <;> cases h <;> exact .respond (.of_eq rfl) _ _
  | enc =>
    obtain ⟨_, _, -, -, rfl⟩ := execEnc_cases h
    exact .respond (.of_eq rfl) _ _
  | dec =>
    obtain ⟨_, -, rfl⟩ := execDec_cases h
    exact .respond (.of_eq rfl) _ _
  | rxPush b => obtain ⟨-, rfl⟩ | ⟨-, rfl⟩ := execRxPush_cases h <;> exact .respond (.of_eq rfl) _ _
  | unpk => obtain ⟨-, rfl⟩ | ⟨-, -, rfl⟩ := execUnpk_cases h <;> exact .respond (.of_eq rfl) _ _
  | shpAx a x => obtain ⟨-, rfl⟩ | ⟨_, _, -, rfl⟩ := execShpAx_cases h <;> exact .respond (.of_eq rfl) _ _
  | shpTrg c x => obtain ⟨-, rfl⟩ | ⟨_, _, -, rfl⟩ := execShpTrg_cases h <;> exact .respond (.of_eq rfl) _ _
  | nop | reset | rd | wr | rdm | schPub | schStart | schCancel | schPclose => cases hi

/-- Everything a command other than `RESET` can do to the scheduler: a register write, what the scheduler's own commands do, and
otherwise nothing. -/
theorem exec_cases {i : Instr} {s t : State} (hreset : i ≠ .reset) (h : exec i s = .next t) :
    (∃ r v reg u, i = .wr r v ∧ regOf r = some reg ∧ regWrite reg v s = some u ∧ t = respond .ok 0#32 u) ∨
    (i = .schPub ∨ i = .schStart ∨ i = .schCancel ∨ i = .schPclose) ∨
    (SameForScheduler s t ∧ AddsNoRequest s t) := by
  have answered (st : Status) (d : Word) : SameForScheduler s (respond st d s) ∧ AddsNoRequest s (respond st d s) :=
    ⟨by constructor <;> rfl, .respond (.of_eq rfl) _ _⟩
  cases i with
  | reset => exact absurd rfl hreset
  | nop =>
    cases h
    exact .inr (.inr (answered _ _))
  | rd r =>
    obtain ⟨st, d, hrd⟩ := HostAccess.execRd_eq_respond r s
    cases hrd.symm.trans h
    exact .inr (.inr (answered _ _))
  | rdm sp off =>
    obtain ⟨st, d, hrdm⟩ := HostAccess.execRdm_eq_respond sp off s
    cases hrdm.symm.trans h
    exact .inr (.inr (answered _ _))
  | wr r v =>
    obtain ⟨-, rfl⟩ | ⟨_, -, -, rfl⟩ | ⟨reg, u, hr, hu, rfl⟩ := execWr_cases h
    · exact .inr (.inr (answered _ _))
    · exact .inr (.inr (answered _ _))
    · exact .inl ⟨r, v, reg, u, rfl, hr, hu, rfl⟩
  | schPub | schStart | schCancel | schPclose => exact .inr (.inl (by simp))
  | crcInit | crcUpd | chSet | chBtn | enc | rxClr | rxPush | dec | unpk | shpAx | shpTrg =>
    exact .inr (.inr ⟨HostAccess.sameForScheduler_of_isDatapath rfl h, quiet_of_isDatapath rfl h⟩)

/-- The scheduler's commands leave the loop and the status interval (R111, R120 to R122). -/
theorem leavesLoop_of_scheduler {i : Instr} {s t : State}
    (hi : i = .schPub ∨ i = .schStart ∨ i = .schCancel ∨ i = .schPclose) (h : exec i s = .next t) :
    LeavesLoop s t ∧ t.statIvl = s.statIvl := by
  obtain rfl | rfl | rfl | rfl := hi
  · cases h
    generalize reverseVec s.rev s.ch = v
    refine ⟨.respond ?_ _ _, rfl⟩
    exact .of_eq rfl rfl rfl rfl rfl rfl
  · simp only [exec, execSchStart] at h
    split at h <;> cases h <;> refine ⟨.respond ?_ _ _, rfl⟩
    all_goals exact .of_eq rfl rfl rfl rfl rfl rfl
  · obtain ⟨-, rfl⟩ | ⟨-, rfl⟩ | ⟨-, rfl⟩ | ⟨-, rfl⟩ := execSchCancel_cases h <;> refine ⟨.respond ?_ _ _, rfl⟩
    case inl => refine .emit ?_ _; exact .of_eq rfl rfl rfl rfl rfl rfl
    all_goals exact .of_eq rfl rfl rfl rfl rfl rfl
  · obtain ⟨-, rfl⟩ | ⟨-, rfl⟩ | ⟨-, rfl⟩ | ⟨-, rfl⟩ := execSchPclose_cases h <;> refine ⟨.respond ?_ _ _, rfl⟩
    case inl => refine .emit ?_ _; exact .of_eq rfl rfl rfl rfl rfl rfl
    all_goals exact .of_eq rfl rfl rfl rfl rfl rfl

/-- No command but `RESET` writes what the loop owns or requests a frame. -/
theorem leavesLoop_of_exec {i : Instr} {s t : State} (hreset : i ≠ .reset) (h : exec i s = .next t) : LeavesLoop s t := by
  obtain ⟨_, _, _, u, -, -, hu, rfl⟩ | hi | ⟨same, quiet⟩ := exec_cases hreset h
  · exact (leavesLoop_of_regWrite hu).respond _ _
  · exact (leavesLoop_of_scheduler hi h).1
  · exact ⟨same.failCnt.symm, same.totalSent.symm, same.statCnt.symm, same.txbuf.symm, same.out.symm, quiet⟩

/-- No word but that of `RESET` writes what the loop owns or requests a frame. -/
theorem leavesLoop_of_runWord {w : Word} {s t : State} (hreset : w ≠ 0x01000000#32) (h : runWord w s = .next t) :
    LeavesLoop s t := by
  cases hd : decode w with
  | illegal =>
    cases (Encoding.runWord_of_illegal hd s).symm.trans h
    exact .respond (.of_eq rfl rfl rfl rfl rfl rfl) _ _
  | reserved =>
    cases (Encoding.runWord_of_reserved hd s).symm.trans h
    exact .respond (.of_eq rfl rfl rfl rfl rfl rfl) _ _
  | command i =>
    rw [Encoding.runWord_of_command hd] at h
    refine leavesLoop_of_exec ?_ h
    rintro rfl
    exact hreset (HostAccess.eq_of_decode_reset hd)

/-! ### The frame requests (R115, R126) -/

/-- From `s` to `t` exactly one frame was requested: the last output, the frame of the latest vector of `s`, which is now in `OUT`
and, framed, in `TXBUF`. -/
structure Requests (s t : State) : Prop where
  outputs : ∃ before, t.trace = s.trace ++ before ++ [.txReq (frame (latest s))] ∧ before.filter isTxReq = []
  sstate : t.sstate = .send
  out : t.out = latest s
  mbxDirty : t.mbxDirty = false
  txbuf : t.txbuf.readBytes 0 26 = frame (latest s)

/-- A send after a change that requested nothing and left the latest vector. -/
theorem requests_startSend {s u : State} (hquiet : AddsNoRequest s u) (hlatest : latest u = latest s) :
    Requests s (startSend u) := by
  obtain ⟨before, htrace, hbefore⟩ := hquiet
  obtain ⟨m, hm⟩ : ∃ m, m = Memory.ofBytes (frame (latest s)) := ⟨_, rfl⟩
  obtain ⟨-, -, hread⟩ := frame_buffer hm
  rw [startSend_eq_latest, hlatest, htrace, ← hm]
  exact ⟨⟨before, rfl, hbefore⟩, rfl, rfl, rfl, hread⟩

/-- What a step does to the frame: nothing and no request, or one request, from the wait point's tick or from a result. -/
def FrameEffect (s t : State) (inp : Input) : Prop :=
  (AddsNoRequest s t ∧ t.txbuf = s.txbuf ∧ t.out = s.out) ∨
    (Requests s t ∧ ((s.sstate = .wait ∧ inp = .tb) ∨ (s.sstate = .send ∧ ∃ ok, inp = .txr ok)))

/-- A timebase pulse requests a frame only from the wait point (R114). -/
theorem frameEffect_tbStep (s : State) : FrameEffect s (tbStep s) .tb := by
  obtain ⟨-, -, h⟩ | ⟨-, -, h⟩ | ⟨hs, -, h⟩ | ⟨-, -, h⟩ := tbStep_cases s <;> rw [h]
  case inr.inr.inl => exact .inr ⟨requests_startSend (.of_eq rfl) rfl, .inl ⟨hs, rfl⟩⟩
  all_goals exact .inl ⟨.of_eq rfl, rfl, rfl⟩

/-- A transport result requests a frame only when a tick is pending in `SEND` (R118). -/
theorem frameEffect_txrStep (ok : Bool) (s : State) : FrameEffect s (txrStep ok s) (.txr ok) := by
  by_cases hs : s.sstate = .send
  · obtain ⟨u, hstep, hu⟩ := txrStep_of_send ok hs
    rw [hstep]
    obtain ⟨-, h⟩ | ⟨-, -, h⟩ | ⟨-, -, -, h⟩ | ⟨-, -, -, h⟩ := waitPoint_cases u <;> rw [h]
    case inr.inr.inl =>
      exact .inr ⟨requests_startSend (hu.quiet.trans (.of_eq rfl)) hu.latest, .inr ⟨hs, ok, rfl⟩⟩
    case inr.inr.inr => exact .inl ⟨hu.quiet.trans (.of_eq rfl), hu.txbuf, hu.out⟩
    all_goals exact .inl ⟨hu.quiet.trans (.emit (.of_eq rfl) _), hu.txbuf, hu.out⟩
  · rw [txrStep_of_not_send ok hs]
    exact .inl ⟨.of_eq rfl, rfl, rfl⟩

/-- Every input but the two resets leaves the frame or requests a new one; the resets request none. -/
theorem frameEffect_of_runInput {s t : State} {inp : Input} (h : runInput inp s = .next t) :
    ((inp = .hreset ∨ inp = .command 0x01000000#32) ∧ AddsNoRequest s t) ∨ FrameEffect s t inp := by
  cases inp with
  | hreset =>
    cases h
    exact .inl ⟨.inl rfl, .of_eq rfl⟩
  | txr ok =>
    cases h
    exact .inr (frameEffect_txrStep ok s)
  | tb =>
    cases h
    exact .inr (frameEffect_tbStep s)
  | command w =>
    by_cases hw : w = 0x01000000#32
    · subst hw
      have hd : decode 0x01000000#32 = .command .reset := by decide
      cases (Encoding.runWord_of_command hd s).symm.trans h
      exact .inl ⟨.inr rfl, .respond (.of_eq rfl) _ _⟩
    · have hleft := leavesLoop_of_runWord hw h
      exact .inr (.inl ⟨hleft.quiet, hleft.txbuf, hleft.out⟩)

/-- Outputs without a request contain none. -/
theorem not_mem_of_filter_eq_nil {new : List Output} (hnew : new.filter isTxReq = []) (f : List Byte) :
    .txReq f ∉ new :=
  fun hmem => List.filter_eq_nil_iff.mp hnew _ hmem rfl

/-- Settles O53: a step that requests nothing has no `TX_REQ` among its outputs; one that requests a frame has it as the last
output and no other. -/
theorem txReqCarriesLatestVector : Obligations.TxReqCarriesLatestVector := by
  unfold Obligations.TxReqCarriesLatestVector
  intro s t inp h
  obtain ⟨-, new, htrace, hnew⟩ | ⟨⟨new, htrace, hnew⟩, -, -⟩ | ⟨hreq, hfrom⟩ := frameEffect_of_runInput h
  · exact ⟨new, htrace, by simp [hnew], fun f hf => absurd hf (not_mem_of_filter_eq_nil hnew f)⟩
  · exact ⟨new, htrace, by simp [hnew], fun f hf => absurd hf (not_mem_of_filter_eq_nil hnew f)⟩
  · obtain ⟨before, htrace, hbefore⟩ := hreq.outputs
    refine ⟨before ++ [.txReq (frame (latest s))], by rw [htrace, List.append_assoc], ?_, fun f hf => ?_⟩
    · rw [List.filter_append, hbefore]
      exact le_refl 1
    · obtain hf | hf := List.mem_append.mp hf
      · exact absurd hf (not_mem_of_filter_eq_nil hbefore f)
      · obtain rfl : f = frame (latest s) := Output.txReq.inj (List.mem_singleton.mp hf)
        exact ⟨hreq.sstate, hreq.out, hreq.mbxDirty, rfl, hreq.txbuf, hfrom⟩

/-- A timebase pulse keeps the counters. -/
theorem tbStep_counters (s : State) :
    (tbStep s).failCnt = s.failCnt ∧ (tbStep s).totalSent = s.totalSent ∧ (tbStep s).statCnt = s.statCnt ∧
      (tbStep s).statIvl = s.statIvl := by
  obtain ⟨-, -, h⟩ | ⟨-, -, h⟩ | ⟨-, -, h⟩ | ⟨-, -, h⟩ := tbStep_cases s <;> rw [h]
  case inr.inr.inl =>
    rw [startSend_eq_latest]
    exact ⟨rfl, rfl, rfl, rfl⟩
  all_goals exact ⟨rfl, rfl, rfl, rfl⟩

/-- Settles O54: every command leaves what the loop owns, a pulse keeps the counters, a result outside `SEND` is ignored, and `OUT`
and `TXBUF` are written together with a request. -/
theorem countersAndFrameOwnedByLoop : Obligations.CountersAndFrameOwnedByLoop := by
  unfold Obligations.CountersAndFrameOwnedByLoop
  refine ⟨fun s t inp h hother hpin hreset => ?counters, fun s t inp h hpin hreset hnone => ?frame⟩
  case counters =>
    cases inp with
    | hreset => exact absurd rfl hpin
    | txr ok =>
      cases h
      have hs : s.sstate ≠ .send := hother.resolve_left fun hne => hne ok rfl
      rw [txrStep_of_not_send ok hs]
      exact ⟨rfl, rfl, rfl⟩
    | tb =>
      cases h
      obtain ⟨hfail, htotal, hstat, -⟩ := tbStep_counters s
      exact ⟨hfail, htotal, hstat⟩
    | command w =>
      have hleft := leavesLoop_of_runWord (fun hw => hreset (congrArg _ hw)) h
      exact ⟨hleft.failCnt, hleft.totalSent, hleft.statCnt⟩
  case frame =>
    obtain ⟨hinp | hinp, -⟩ | ⟨-, htxbuf, hout⟩ | ⟨hreq, -⟩ := frameEffect_of_runInput h
    · exact absurd hinp hpin
    · exact absurd hinp hreset
    · exact ⟨htxbuf, hout⟩
    · obtain ⟨before, htrace, -⟩ := hreq.outputs
      exact absurd (List.mem_append_right before (List.mem_singleton_self _))
        (hnone _ _ (htrace.trans (List.append_assoc _ _ _)))

/-! ### The status count (R22, R116) -/

/-- The wait point keeps the status count and its interval. -/
theorem waitPoint_statCnt (s : State) : (waitPoint s).statCnt = s.statCnt ∧ (waitPoint s).statIvl = s.statIvl := by
  obtain ⟨-, h⟩ | ⟨-, -, h⟩ | ⟨-, -, -, h⟩ | ⟨-, -, -, h⟩ := waitPoint_cases s <;> rw [h]
  case inr.inr.inl =>
    rw [startSend_eq_latest]
    exact ⟨rfl, rfl⟩
  all_goals exact ⟨rfl, rfl⟩

/-- After a success is counted the status count is below the interval, or 0 without one. -/
theorem countStatus_bounded (s : State) :
    if s.statIvl = 0#16 then (countStatus s).statCnt = 0#16
    else (countStatus s).statCnt.toNat < (countStatus s).statIvl.toNat := by
  obtain ⟨hzero, h⟩ | ⟨hivl, -, h⟩ | ⟨hivl, hlt, h⟩ := countStatus_cases s <;> rw [h]
  · rw [if_pos hzero]
  · rw [if_neg hivl]
    exact Nat.pos_of_ne_zero fun hzero => hivl (BitVec.eq_of_toNat_eq hzero)
  · rw [if_neg hivl]
    have hsmall : s.statIvl.toNat < 65536 := s.statIvl.isLt
    have hcount : (s.statCnt + 1#16).toNat = s.statCnt.toNat + 1 :=
      BitVec.toNat_add_of_lt (show s.statCnt.toNat + 1 < 2 ^ 16 by omega)
    exact hcount.trans_lt hlt

/-- After a success in `SEND` the status count is below the interval, or 0 without one. -/
theorem txrStep_true_bounded {s : State} (hs : s.sstate = .send) :
    if s.statIvl = 0#16 then (txrStep true s).statCnt = 0#16
    else (txrStep true s).statCnt.toNat < (txrStep true s).statIvl.toNat := by
  rw [txrStep_true hs, (waitPoint_statCnt _).1, (waitPoint_statCnt _).2]
  exact countStatus_bounded { s with failCnt := 0#16, totalSent := s.totalSent + 1#32 }

/-- A transport result keeps the status interval. -/
theorem txrStep_statIvl (ok : Bool) (s : State) : (txrStep ok s).statIvl = s.statIvl := by
  by_cases hs : s.sstate = .send
  · obtain ⟨u, hstep, hu⟩ := txrStep_of_send ok hs
    rw [hstep, (waitPoint_statCnt u).2, hu.statIvl]
  · rw [txrStep_of_not_send ok hs]

/-- A failure keeps the status count. -/
theorem txrStep_false_statCnt (s : State) : (txrStep false s).statCnt = s.statCnt := by
  by_cases hs : s.sstate = .send
  · rw [txrStep_false hs, (waitPoint_statCnt _).1]
    obtain ⟨-, h⟩ | ⟨-, h⟩ := countFailure_cases s <;> rw [h, emit_statCnt]
  · rw [txrStep_of_not_send false hs]

/-- `STAT_IVL` is the register of number 0x1C and of no other (R16, R18). -/
theorem eq_of_regOf_statIvl {r : Nat} (h : regOf r = some .statIvl) : r = 0x1C := by
  simpa [HostAccess.registerMap] using HostAccess.mem_registerMap_iff.mpr h

/-- The word of a `WR STAT_IVL` begins with 0x031C (R18, R46). -/
theorem extractLsb'_of_decode_wr_statIvl {w : Word} {v : BitVec 16} (h : decode w = .command (.wr 0x1C v)) :
    w.extractLsb' 16 16 = 0x031C#16 := by
  obtain ⟨idx, imm, rfl, hmade, -⟩ := RoundTrip.fields_of_decode h rfl
  obtain ⟨hidx, -⟩ := Instr.wr.inj hmade
  obtain rfl : 0x1C#8 = idx := BitVec.eq_of_toNat_eq hidx
  have hword : 0x03#8 ++ 0x1C#8 ++ imm = 0x031C#16 ++ imm := rfl
  rw [Instr.opcode, hword]
  exact BitVec.extractLsb'_append_eq_left

/-- Only a write of `STAT_IVL` and a reset change the status interval (R18, R56). -/
theorem exec_statIvl {i : Instr} {s t : State} (hreset : i ≠ .reset) (hivl : ∀ v, i ≠ .wr 0x1C v)
    (h : exec i s = .next t) : t.statIvl = s.statIvl := by
  obtain ⟨r, v, reg, u, rfl, hr, hu, rfl⟩ | hi | ⟨same, -⟩ := exec_cases hreset h
  · obtain ⟨_, -, rfl⟩ | ⟨_, -, rfl⟩ | ⟨-, rfl⟩ | ⟨-, rfl⟩ | ⟨-, rfl⟩ | ⟨-, rfl⟩ | ⟨rfl, -⟩ | ⟨-, rfl⟩ | ⟨-, rfl⟩ :=
      regWrite_cases hu
    case inr.inr.inr.inr.inr.inr.inl => exact absurd (congrArg (Instr.wr · v) (eq_of_regOf_statIvl hr)) (hivl v)
    all_goals rfl
  · exact (leavesLoop_of_scheduler hi h).2
  · exact same.statIvl.symm

/-- A word keeps the status interval unless it resets or begins like a write of it. -/
theorem runWord_statIvl {w : Word} {s t : State} (hreset : w ≠ 0x01000000#32) (hivl : w.extractLsb' 16 16 ≠ 0x031C#16)
    (h : runWord w s = .next t) : t.statIvl = s.statIvl := by
  cases hd : decode w with
  | illegal =>
    cases (Encoding.runWord_of_illegal hd s).symm.trans h
    rfl
  | reserved =>
    cases (Encoding.runWord_of_reserved hd s).symm.trans h
    rfl
  | command i =>
    rw [Encoding.runWord_of_command hd] at h
    refine exec_statIvl ?_ ?_ h
    · rintro rfl
      exact hreset (HostAccess.eq_of_decode_reset hd)
    · rintro v rfl
      exact hivl (extractLsb'_of_decode_wr_statIvl hd)

/-- A reset leaves the status count below its interval: 0 below 250 (R27). -/
theorem statCnt_lt_of_reset : State.reset.statCnt.toNat < State.reset.statIvl.toNat := by decide

/-- Settles O55: a success counts up to the interval at most; every other input but a write of the interval keeps count and interval
or resets both. -/
theorem statusCountStaysBelowInterval : Obligations.StatusCountStaysBelowInterval := by
  unfold Obligations.StatusCountStaysBelowInterval
  refine ⟨fun s t hs h => ?success, fun s t inp h hword hbelow hne => ?kept⟩
  case success =>
    cases h
    exact txrStep_true_bounded hs
  case kept =>
    have kept (hcnt : t.statCnt = s.statCnt) (hivl : t.statIvl = s.statIvl) : t.statCnt.toNat < t.statIvl.toNat := by
      rw [hcnt, hivl]
      exact hbelow (hivl ▸ hne)
    cases inp with
    | hreset =>
      cases h
      exact statCnt_lt_of_reset
    | tb =>
      cases h
      obtain ⟨-, -, hcnt, hivl⟩ := tbStep_counters s
      exact kept hcnt hivl
    | txr ok =>
      cases h
      have hivl := txrStep_statIvl ok s
      cases ok with
      | false => exact kept (txrStep_false_statCnt s) hivl
      | true =>
        by_cases hs : s.sstate = .send
        · have hbounded := txrStep_true_bounded hs
          rwa [if_neg (hivl ▸ hne)] at hbounded
        · exact kept (by rw [txrStep_of_not_send true hs]) hivl
    | command w =>
      by_cases hw : w = 0x01000000#32
      · subst hw
        have hd : decode 0x01000000#32 = .command .reset := by decide
        cases (Encoding.runWord_of_command hd s).symm.trans h
        exact statCnt_lt_of_reset
      · exact kept (leavesLoop_of_runWord hw h).statCnt (runWord_statIvl hw (hword w rfl) h)

/-! ### The transition table (R124) -/

/-- `SSTATE` after a command (R54, R120 to R122). -/
def commandNext (s : State) : Instr → SState
  | .reset => .stopped
  | .schStart => if s.sstate = .stopped then .wait else s.sstate
  | .schCancel => if s.sstate = .stopped ∨ s.sstate = .wait then .exitCancel else s.sstate
  | .schPclose => if s.sstate = .stopped ∨ s.sstate = .wait then .exitFatal else s.sstate
  | .nop | .rd _ | .wr _ _ | .rdm _ _ | .crcInit | .crcUpd _ | .chSet _ _ | .chBtn _ _ | .enc | .rxClr | .rxPush _
  | .dec | .unpk | .shpAx _ _ | .shpTrg _ _ | .schPub => s.sstate

/-- Every command moves `SSTATE` as its rule says. -/
theorem exec_sstate {i : Instr} {s t : State} (h : exec i s = .next t) : t.sstate = commandNext s i := by
  cases i with
  | nop | reset | schPub =>
    cases h
    rfl
  | rd r =>
    obtain ⟨st, d, hrd⟩ := HostAccess.execRd_eq_respond r s
    cases hrd.symm.trans h
    rfl
  | rdm sp off =>
    obtain ⟨st, d, hrdm⟩ := HostAccess.execRdm_eq_respond sp off s
    cases hrdm.symm.trans h
    rfl
  | wr r v => exact HostAccess.execWr_sstate h
  | schStart =>
    simp only [exec, execSchStart] at h
    split at h <;> cases h <;> simp [commandNext, *]
  | schCancel =>
    obtain ⟨hs, rfl⟩ | ⟨hs, rfl⟩ | ⟨hs, rfl⟩ | ⟨hs, rfl⟩ := execSchCancel_cases h <;> simp [commandNext, hs]
  | schPclose =>
    obtain ⟨hs, rfl⟩ | ⟨hs, rfl⟩ | ⟨hs, rfl⟩ | ⟨hs, rfl⟩ := execSchPclose_cases h <;> simp [commandNext, hs]
  | crcInit | crcUpd | chSet | chBtn | enc | rxClr | rxPush | dec | unpk | shpAx | shpTrg =>
    exact (HostAccess.sameForScheduler_of_isDatapath rfl h).sstate.symm

/-- A word of format `N` is the only word of its command. -/
theorem eq_word_iff {w word : Word} {i j : Instr} {row : OpRow} (hd : decode w = .command i)
    (hword : decode word = .command j) (hrow : findRow j.opcode = some row) (hformat : row.format = .n) :
    w = word ↔ i = j := by
  constructor
  · rintro rfl
    exact Verdict.command.inj (hd.symm.trans hword)
  · rintro rfl
    exact (CrcUnit.eq_of_decode_n hd hrow hformat).trans (CrcUnit.eq_of_decode_n hword hrow hformat).symm

/-- The table's row of a command word is the row of the command it decodes to. -/
theorem tableNext_of_command {w : Word} {i : Instr} (hd : decode w = .command i) (s : State) :
    tableNext s (.command w) = commandNext s i := by
  have hreset : w = 0x01000000#32 ↔ i = .reset := eq_word_iff hd (by decide) rfl rfl
  have hstart : w = 0x41000000#32 ↔ i = .schStart := eq_word_iff hd (by decide) rfl rfl
  have hcancel : w = 0x42000000#32 ↔ i = .schCancel := eq_word_iff hd (by decide) rfl rfl
  have hpclose : w = 0x43000000#32 ↔ i = .schPclose := eq_word_iff hd (by decide) rfl rfl
  simp only [tableNext, hreset, hstart, hcancel, hpclose]
  cases i <;> simp [commandNext]

/-- A word that is no command has no row of its own in the table. -/
theorem tableNext_of_not_command {w : Word} (hd : ∀ i, decode w ≠ .command i) (s : State) :
    tableNext s (.command w) = s.sstate := by
  have hne (word : Word) (i : Instr) (hword : decode word = .command i) : w ≠ word := by
    rintro rfl
    exact hd i hword
  have hreset : w ≠ 0x01000000#32 := hne _ .reset (by decide)
  have hstart : w ≠ 0x41000000#32 := hne _ .schStart (by decide)
  have hcancel : w ≠ 0x42000000#32 := hne _ .schCancel (by decide)
  have hpclose : w ≠ 0x43000000#32 := hne _ .schPclose (by decide)
  simp [tableNext, hreset, hstart, hcancel, hpclose]

/-- A result taken in `SEND` leads where the wait point's priorities say (R118). -/
theorem waitPoint_sstate (s : State) : (waitPoint s).sstate = afterResult s := by
  obtain ⟨hfatal, h⟩ | ⟨hfatal, hcancel, h⟩ | ⟨hfatal, hcancel, htick, h⟩ | ⟨hfatal, hcancel, htick, h⟩ :=
    waitPoint_cases s <;> rw [h]
  · simp [afterResult, hfatal]
  · simp [afterResult, hfatal, hcancel]
  · rw [startSend_eq_latest]
    simp [afterResult, hfatal, hcancel, htick]
  · simp [afterResult, hfatal, hcancel, htick]

/-- Settles O52: the table's rows for the environment are the cases of its steps, and its rows for words are those of the commands
they decode to. -/
theorem transitionsFollowTable : Obligations.TransitionsFollowTable := by
  unfold Obligations.TransitionsFollowTable
  intro s t inp h
  cases inp with
  | hreset =>
    cases h
    rfl
  | txr ok =>
    cases h
    by_cases hs : s.sstate = .send
    · obtain ⟨u, hstep, hu⟩ := txrStep_of_send ok hs
      rw [hstep, waitPoint_sstate, tableNext, if_pos hs]
      simp only [afterResult, hu.fatalPend, hu.cancelPend, hu.tickPend]
    · rw [txrStep_of_not_send ok hs, tableNext, if_neg hs]
  | tb =>
    cases h
    obtain ⟨hwait, -, h⟩ | ⟨-, hpos, h⟩ | ⟨hs, hzero, h⟩ | ⟨hs, -, h⟩ := tbStep_cases s <;> rw [h, tableNext]
    · rw [if_neg fun hat => hwait hat.1]
    · rw [if_neg fun hat => hpos hat.2]
    · rw [if_pos ⟨hs, hzero⟩, startSend_eq_latest]
    · simp [hs]
  | command w =>
    cases hd : decode w with
    | illegal =>
      cases (Encoding.runWord_of_illegal hd s).symm.trans h
      exact (tableNext_of_not_command (by simp [hd]) s).symm
    | reserved =>
      cases (Encoding.runWord_of_reserved hd s).symm.trans h
      exact (tableNext_of_not_command (by simp [hd]) s).symm
    | command i =>
      rw [tableNext_of_command hd]
      exact exec_sstate ((Encoding.runWord_of_command hd s).symm.trans h)

end Sys2Proof.Loop
end

section
/-! SUPPORT. The invariant (`10_state.md` section 11) in its two halves: what the CRC, codec and shaper units keep of their own
state, and what the scheduler keeps of its own. Each half depends on nothing the other side writes, so every operation has to
be shown to keep one half only. -/

namespace Sys2Proof.Invariant

open Sys2Proof.Machine Sys2Proof.Safety Sys2Proof.Interference

/-! ### The two halves -/

/-- The half of the invariant over the state of the CRC, codec and shaper units. -/
structure DatapathInv (s : State) : Prop where
  ebuf_wf : s.ebuf.wf = true
  ebuf_within : s.ebuf.within 26 = true
  rxbuf_wf : s.rxbuf.wf = true
  rxbuf_within : s.rxbuf.within 64 = true
  dz_le : ∀ a : Fin 4, s.dz[a].toNat ≤ 4096
  expo_le : ∀ a : Fin 4, s.expo[a].toNat ≤ 16384
  tdz_le : s.tdz.toNat ≤ 4096
  shpY_ge : -16384 ≤ s.shpY.toInt
  shpY_le : s.shpY.toInt ≤ 16384
  rxlen_le : s.rxlen.toNat ≤ 64
  rxovf_full : s.rxovf = true → s.rxlen = 64#7
  rplen_le : s.rplen.toNat ≤ 60
  derr_clears : s.derr ≠ .ok → s.rtype = 0x00#8 ∧ s.rplen = 0#6
  decoded : s.dvalid = true → HoldsDecodedFrame s
  encoded : s.evalid = true → ∃ v : ChanVec, s.ebuf.readBytes 0 26 = frame v

/-- The half of the invariant over the state of the scheduler. -/
structure SchedulerInv (s : State) : Prop where
  txbuf_wf : s.txbuf.wf = true
  txbuf_within : s.txbuf.within 26 = true
  rate_pos : 1 ≤ s.rate.toNat
  sent : NeverSent s ∨ s.txbuf.readBytes 0 26 = frame s.out
  pend_only_in_send : s.sstate ≠ .send → s.tickPend = false ∧ s.cancelPend = false ∧ s.fatalPend = false
  tmr_lt : s.tmr.toNat < 1000000
  statCnt_le : s.statCnt.toNat ≤ 65534

/-- The invariant is its two halves. -/
theorem inv_iff {s : State} : Inv s ↔ DatapathInv s ∧ SchedulerInv s :=
  ⟨fun h => ⟨{ h with }, { h with }⟩, fun ⟨hdata, hsched⟩ => { hdata, hsched with }⟩

section
variable {s t : State}

/-- The decoded frame is described by the datapath's state alone. -/
theorem holdsDecodedFrame_congr (h : HoldsDecodedFrame s) (same : SameForDatapath s t) : HoldsDecodedFrame t := by
  obtain ⟨derr_ok, long_enough, sync, len_min, len_max, complete, rtype, rplen, crc⟩ := h
  rw [same.rxlen] at long_enough complete
  rw [same.rxbuf] at sync len_min len_max complete rtype rplen crc
  exact ⟨same.derr ▸ derr_ok, long_enough, sync, len_min, len_max, complete, same.rtype ▸ rtype, same.rplen ▸ rplen, crc⟩

/-- The datapath's half reads the datapath's state alone. -/
theorem DatapathInv.congr (h : DatapathInv s) (same : SameForDatapath s t) : DatapathInv t where
  ebuf_wf := same.ebuf ▸ h.ebuf_wf
  ebuf_within := same.ebuf ▸ h.ebuf_within
  rxbuf_wf := same.rxbuf ▸ h.rxbuf_wf
  rxbuf_within := same.rxbuf ▸ h.rxbuf_within
  dz_le := same.dz ▸ h.dz_le
  expo_le := same.expo ▸ h.expo_le
  tdz_le := same.tdz ▸ h.tdz_le
  shpY_ge := same.shpY ▸ h.shpY_ge
  shpY_le := same.shpY ▸ h.shpY_le
  rxlen_le := same.rxlen ▸ h.rxlen_le
  rxovf_full := same.rxlen ▸ same.rxovf ▸ h.rxovf_full
  rplen_le := same.rplen ▸ h.rplen_le
  derr_clears := same.derr ▸ same.rtype ▸ same.rplen ▸ h.derr_clears
  decoded hvalid := holdsDecodedFrame_congr (h.decoded (same.dvalid.trans hvalid)) same
  encoded := same.ebuf ▸ same.evalid ▸ h.encoded

/-- That nothing was sent is told by the scheduler's state alone. -/
theorem neverSent_congr (h : NeverSent s) (same : SameForScheduler s t) : NeverSent t where
  not_sending := same.sstate ▸ h.not_sending
  txbuf := same.txbuf ▸ h.txbuf
  out := same.out ▸ h.out
  failCnt := same.failCnt ▸ h.failCnt
  totalSent := same.totalSent ▸ h.totalSent
  statCnt := same.statCnt ▸ h.statCnt

/-- The scheduler's half reads the scheduler's state alone. -/
theorem SchedulerInv.congr (h : SchedulerInv s) (same : SameForScheduler s t) : SchedulerInv t where
  txbuf_wf := same.txbuf ▸ h.txbuf_wf
  txbuf_within := same.txbuf ▸ h.txbuf_within
  rate_pos := same.rate ▸ h.rate_pos
  sent := h.sent.imp (neverSent_congr · same) (same.txbuf ▸ same.out ▸ ·)
  pend_only_in_send := same.sstate ▸ same.tickPend ▸ same.cancelPend ▸ same.fatalPend ▸ h.pend_only_in_send
  tmr_lt := same.tmr ▸ h.tmr_lt
  statCnt_le := same.statCnt ▸ h.statCnt_le

end

/-- A response is in the trace alone. -/
theorem inv_respond {s : State} (h : Inv s) (st : Status) (d : Word) : Inv (respond st d s) := by
  obtain ⟨hdata, hsched⟩ := inv_iff.mp h
  exact inv_iff.mpr ⟨hdata.congr (by constructor <;> rfl), hsched.congr (by constructor <;> rfl)⟩

/-- What is still presented is outside the block. -/
theorem inv_inputs {s : State} (h : Inv s) (rest : List Arrival) : Inv { s with inputs := rest } := by
  obtain ⟨hdata, hsched⟩ := inv_iff.mp h
  exact inv_iff.mpr ⟨hdata.congr (by constructor <;> rfl), hsched.congr (by constructor <;> rfl)⟩

/-! ### Reset (R27, R140) -/

/-- Settles O10: the buffers are empty, nothing was decoded, encoded or sent, and every number of R27 is in its range. -/
theorem resetHasInv : Obligations.ResetHasInv := by
  unfold Obligations.ResetHasInv
  have hneverSent : NeverSent State.reset := ⟨by decide, rfl, rfl, rfl, rfl, rfl⟩
  constructor
  case sent => exact .inl hneverSent
  case dz_le | expo_le => intro a; simp [State.reset]
  case decoded | encoded | rxovf_full => intro h; cases h
  case derr_clears => exact fun h => absurd rfl h
  case pend_only_in_send => exact fun _ => ⟨rfl, rfl, rfl⟩
  all_goals decide

/-- A reset leaves the reset state beside the inputs and outputs. -/
theorem inv_resetBlock (s : State) : Inv (resetBlock s) := by
  obtain ⟨hdata, hsched⟩ := inv_iff.mp resetHasInv
  exact inv_iff.mpr ⟨hdata.congr (by constructor <;> rfl), hsched.congr (by constructor <;> rfl)⟩

/-! ### The codec's commands -/

section
variable {s : State}

/-- A frame written whole to `EBUF` is a frame there (R77). -/
theorem DatapathInv.encode (h : DatapathInv s) {m : Memory} {v : ChanVec} (hm : m = Memory.ofBytes (frame v)) :
    DatapathInv { s with ebuf := m, evalid := true } := by
  obtain ⟨hwf, hwithin, hread⟩ := frame_buffer hm
  exact { h with
    ebuf_wf := hwf
    ebuf_within := hwithin
    decoded := fun hvalid => { h.decoded hvalid with }
    encoded := fun _ => ⟨v, hread⟩ }

/-- An emptied receive buffer holds no frame (R79). -/
theorem DatapathInv.clearReceived (h : DatapathInv s) : DatapathInv { s with
    rxlen := 0#7, rxovf := false, dvalid := false, derr := .ok, rtype := 0x00#8, rplen := 0#6 } :=
  { h with
    rxlen_le := Nat.zero_le 64
    rxovf_full := fun hfull => absurd hfull Bool.false_ne_true
    rplen_le := Nat.zero_le 60
    derr_clears := fun hfailed => absurd rfl hfailed
    decoded := fun hvalid => absurd hvalid Bool.false_ne_true }

/-- A byte discarded is remembered while the buffer is full (R80). -/
theorem DatapathInv.overflow (h : DatapathInv s) (hfull : s.rxlen = 64#7) : DatapathInv { s with rxovf := true } :=
  { h with
    rxovf_full := fun _ => hfull
    decoded := fun hvalid => { h.decoded hvalid with } }

/-- A byte received goes inside the buffer, and what was decoded is no longer valid (R80). -/
theorem DatapathInv.push (h : DatapathInv s) (b : Byte) (hroom : s.rxlen ≠ 64#7) : DatapathInv { s with
    rxbuf := s.rxbuf.write s.rxlen.toNat b, rxlen := s.rxlen + 1#7, dvalid := false } := by
  have hlt : s.rxlen.toNat < 64 := lt_of_le_of_ne h.rxlen_le fun heq => hroom (BitVec.eq_of_toNat_eq heq)
  have hlen : (s.rxlen + 1#7).toNat = s.rxlen.toNat + 1 :=
    BitVec.toNat_add_of_lt (show s.rxlen.toNat + 1 < 2 ^ 7 by omega)
  exact { h with
    rxbuf_wf := Memory.wf_write h.rxbuf_wf _ _
    rxbuf_within := Memory.within_write h.rxbuf_within hlt _
    rxlen_le := hlen.trans_le hlt
    rxovf_full := fun hovf => absurd (h.rxovf_full hovf) hroom
    decoded := fun hvalid => absurd hvalid Bool.false_ne_true }

/-- A failed frame check leaves no valid frame (R75, R78). -/
theorem DatapathInv.recordFailed (h : DatapathInv s) {e : DecErr} (he : e ≠ .ok) :
    DatapathInv (recordDecode (.failed e) s) :=
  { h with
    rplen_le := Nat.zero_le 60
    derr_clears := fun _ => ⟨rfl, rfl⟩
    decoded := fun hvalid => absurd (of_decide_eq_true hvalid) he }

/-- A part of the bytes read from the start of a buffer is read from where it begins. -/
theorem take_drop_readBytes (m : Memory) {k len n : Nat} (h : k + len ≤ n) :
    ((m.readBytes 0 n).drop k).take len = m.readBytes k len := by
  apply List.ext_getElem
  · simp
    omega
  · intro i hi hi'
    simp [Memory.readBytes]

/-- A byte received is read from the buffer. -/
theorem getD_rxBytes {k : Nat} (h : k < s.rxlen.toNat) : (rxBytes s).getD k 0x00#8 = s.rxbuf.read k := by
  rw [rxBytes, Memory.getD_readBytes _ _ _ _ _ h, Nat.zero_add]

/-- What `DEC` records is what R28 says of the decode registers and the receive buffer. -/
theorem DatapathInv.recordDecode (h : DatapathInv s) : DatapathInv (recordDecode (decodeFrame (rxBytes s)) s) := by
  have hlength : (rxBytes s).length = s.rxlen.toNat := Memory.length_readBytes _ _ _
  obtain ⟨-, hd⟩ | ⟨-, -, hd⟩ | ⟨-, -, -, hd⟩ | ⟨-, -, -, -, -, hd⟩ | ⟨-, -, -, -, -, -, hd⟩ |
    ⟨hlong, hsync, hmin, hmax, hcomplete, hcrc, hd⟩ := decodeFrame_cases (rxBytes s) <;> rw [hd]
  case inr.inr.inr.inr.inr =>
    rw [hlength] at hlong hcomplete
    rw [getD_rxBytes (by omega)] at hsync hmin hmax hcomplete hcrc
    rw [getD_rxBytes (by omega), getD_rxBytes (by omega)]
    rw [getD_rxBytes (by omega), rxBytes, take_drop_readBytes _ (by omega)] at hcrc
    have hplen : (BitVec.ofNat 6 ((s.rxbuf.read 1).toNat - 2)).toNat = (s.rxbuf.read 1).toNat - 2 :=
      (BitVec.toNat_ofNat _ _).trans (Nat.mod_eq_of_lt (by omega))
    exact { h with
      rplen_le := hplen.trans_le (by omega)
      derr_clears := fun hfailed => absurd rfl hfailed
      decoded := fun _ =>
        { derr_ok := rfl, long_enough := hlong, sync := hsync, len_min := hmin, len_max := hmax,
          complete := hcomplete, rtype := rfl, rplen := hplen, crc := hcrc } }
  all_goals exact h.recordFailed (by decide)

/-! ### The datapath's commands -/

/-- A shaped value in the shaper's range is in the range of `SHP_Y` (R19). -/
theorem DatapathInv.shape (h : DatapathInv s) {y : BitVec 16} {v : ChanVec} (hlow : -16384 ≤ y.toInt)
    (hhigh : y.toInt ≤ 16384) : DatapathInv { s with shpY := y, ch := v } :=
  { h with
    shpY_ge := hlow
    shpY_le := hhigh
    decoded := fun hvalid => { h.decoded hvalid with } }

/-- A channel written is under no condition. -/
theorem DatapathInv.setCh (h : DatapathInv s) (c : Fin 16) (v : Chan) : DatapathInv (setCh c v s) :=
  { h with decoded := fun hvalid => { h.decoded hvalid with } }

/-- The running CRC is under no condition. -/
theorem DatapathInv.setCrc (h : DatapathInv s) (c : Byte) : DatapathInv { s with crc := c } :=
  { h with decoded := fun hvalid => { h.decoded hvalid with } }

/-- The unpacked vector is under no condition. -/
theorem DatapathInv.setUch (h : DatapathInv s) (v : ChanVec) : DatapathInv { s with uch := v } :=
  { h with decoded := fun hvalid => { h.decoded hvalid with } }

/-- A response is not part of the datapath. -/
theorem DatapathInv.respond (h : DatapathInv s) (st : Status) (d : Word) : DatapathInv (respond st d s) :=
  h.congr (by constructor <;> rfl)

end

/-- The commands of the CRC, codec and shaper units keep the datapath's half. -/
theorem datapathInv_of_isDatapath {i : Instr} {s t : State} (hi : isDatapath i = true) (h : DatapathInv s)
    (hexec : exec i s = .next t) : DatapathInv t := by
  cases i with
  | crcInit | crcUpd =>
    cases hexec
    exact (h.setCrc _).respond _ _
  | chSet c v =>
    simp only [exec, execChSet] at hexec
    split at hexec <;> cases hexec
    · exact h.respond _ _
    · exact (h.setCh _ _).respond _ _
  | chBtn c p =>
    simp only [exec, execChBtn] at hexec
    split at hexec <;> cases hexec
    · exact h.respond _ _
    · exact (h.setCh _ _).respond _ _
  | enc =>
    obtain ⟨m, d, hm, -, rfl⟩ := execEnc_cases hexec
    exact (h.encode hm).respond _ _
  | rxClr =>
    cases hexec
    exact h.clearReceived.respond _ _
  | rxPush b =>
    obtain ⟨hfull, rfl⟩ | ⟨hroom, rfl⟩ := execRxPush_cases hexec
    · exact (h.overflow hfull).respond _ _
    · exact (h.push b hroom).respond _ _
  | dec =>
    obtain ⟨d, rfl, rfl⟩ := execDec_cases hexec
    exact h.recordDecode.respond _ _
  | unpk =>
    obtain ⟨-, rfl⟩ | ⟨-, -, rfl⟩ := execUnpk_cases hexec
    · exact h.respond _ _
    · exact (h.setUch _).respond _ _
  | shpAx a x =>
    obtain ⟨-, rfl⟩ | ⟨ha, y, hy, rfl⟩ := execShpAx_cases hexec
    · exact h.respond _ _
    · have hrange : y.natAbs ≤ 16384 := by
        rw [hy]
        exact ShaperUnit.natAbs_shapeAxis_le x _ (h.expo_le ⟨a, ha⟩)
      have hread : (tc16 y).toInt = y := ShaperUnit.toInt_tc16 (by omega) (by omega)
      exact (h.shape (by omega) (by omega)).respond _ _
  | shpTrg c x =>
    obtain ⟨-, rfl⟩ | ⟨_, y, hy, rfl⟩ := execShpTrg_cases hexec
    · exact h.respond _ _
    · have hrange : y ≤ 16384 := hy.trans_le (ShaperUnit.shapeTrigger_le x _)
      have hread : (BitVec.ofNat 16 y).toInt = y := by
        rw [BitVec.toInt_eq_toNat_of_lt (by rw [BitVec.toNat_ofNat]; omega), BitVec.toNat_ofNat]
        omega
      exact (h.shape (by omega) (by omega)).respond _ _
  | nop | reset | rd | wr | rdm | schPub | schStart | schCancel | schPclose => cases hi

/-! ### The scheduler's operations -/

section
variable {s : State}

/-- In `SEND` the frame of `OUT` is in `TXBUF`. -/
theorem SchedulerInv.frame_of_send (h : SchedulerInv s) (hs : s.sstate = .send) :
    s.txbuf.readBytes 0 26 = frame s.out :=
  h.sent.resolve_left fun hnever => hnever.not_sending hs

/-- A send leaves the frame of the new `OUT` in `TXBUF` (R115). -/
theorem SchedulerInv.startSend (h : SchedulerInv s) : SchedulerInv (startSend s) := by
  obtain ⟨m, hm⟩ : ∃ m, m = Memory.ofBytes (frame (latest s)) := ⟨_, rfl⟩
  obtain ⟨hwf, hwithin, hread⟩ := frame_buffer hm
  rw [startSend_eq_latest, ← hm]
  exact { h with
    txbuf_wf := hwf
    txbuf_within := hwithin
    sent := .inr hread
    pend_only_in_send := fun hs => absurd rfl hs }

/-- The wait point leaves `SEND` with no bit pending, or sends again (R118). -/
theorem SchedulerInv.waitPoint (h : SchedulerInv s) (hs : s.sstate = .send) : SchedulerInv (waitPoint s) := by
  have hframe := h.frame_of_send hs
  obtain ⟨-, hw⟩ | ⟨hfatal, -, hw⟩ | ⟨-, -, -, hw⟩ | ⟨hfatal, hcancel, htick, hw⟩ := waitPoint_cases s <;> rw [hw]
  case inl => exact { h with sent := .inr hframe, pend_only_in_send := fun _ => ⟨rfl, rfl, rfl⟩ }
  case inr.inl => exact { h with sent := .inr hframe, pend_only_in_send := fun _ => ⟨rfl, rfl, hfatal⟩ }
  case inr.inr.inl =>
    have htaken : SchedulerInv { s with tickPend := false } :=
      { h with sent := .inr hframe, pend_only_in_send := fun hne => absurd hs hne }
    exact htaken.startSend
  case inr.inr.inr =>
    exact { h with sent := .inr hframe, pend_only_in_send := fun _ => ⟨htick, hcancel, hfatal⟩ }

/-- Counting towards the status summary keeps `STAT_CNT` below the greatest interval (R22, R116). -/
theorem SchedulerInv.countStatus (h : SchedulerInv s) (hs : s.sstate = .send) : SchedulerInv (countStatus s) := by
  have hframe := h.frame_of_send hs
  obtain ⟨-, hc⟩ | ⟨-, -, hc⟩ | ⟨-, hlt, hc⟩ := countStatus_cases s <;> rw [hc]
  case inl => exact { h with sent := .inr hframe, statCnt_le := Nat.zero_le _ }
  case inr.inl => exact { h with sent := .inr hframe, statCnt_le := Nat.zero_le _ }
  case inr.inr =>
    have hivl : s.statIvl.toNat < 65536 := s.statIvl.isLt
    have hcount : (s.statCnt + 1#16).toNat = s.statCnt.toNat + 1 :=
      BitVec.toNat_add_of_lt (show s.statCnt.toNat + 1 < 2 ^ 16 by omega)
    exact { h with sent := .inr hframe, statCnt_le := hcount.trans_le (by omega) }

/-- Counting a failure is under no condition once a frame was sent (R117). -/
theorem SchedulerInv.countFailure (h : SchedulerInv s) (hs : s.sstate = .send) : SchedulerInv (countFailure s) := by
  have hframe := h.frame_of_send hs
  obtain ⟨-, hc⟩ | ⟨-, hc⟩ := countFailure_cases s
  · rw [hc]
    exact { h with sent := .inr hframe }
  · rw [hc]
    exact { h with sent := .inr hframe }

/-- A transport result keeps the scheduler's half (R116, R117, R123). -/
theorem SchedulerInv.txrStep (h : SchedulerInv s) (ok : Bool) : SchedulerInv (txrStep ok s) := by
  by_cases hs : s.sstate = .send
  · cases ok with
    | false =>
      rw [txrStep_false hs]
      exact (h.countFailure hs).waitPoint ((Loop.counted_failure s).sstate.trans hs)
    | true =>
      rw [txrStep_true hs]
      have hsent : SchedulerInv { s with failCnt := 0#16, totalSent := s.totalSent + 1#32 } :=
        { h with sent := .inr (h.frame_of_send hs) }
      exact (hsent.countStatus hs).waitPoint ((Loop.counted_success s).sstate.trans hs)
  · rwa [txrStep_of_not_send ok hs]

/-- The timer is loaded with a value of its range (R113, R120). -/
theorem timerReload_lt (s : State) : (timerReload s).toNat < 1000000 := by
  have hle : 1000000 / s.rate.toNat ≤ 1000000 := Nat.div_le_self _ _
  rw [timerReload_toNat]
  omega

/-- The timer loaded or counted down stays in its range. -/
theorem SchedulerInv.setTmr (h : SchedulerInv s) {n : BitVec 20} (hn : n.toNat < 1000000) :
    SchedulerInv { s with tmr := n } :=
  { h with tmr_lt := hn, sent := h.sent.imp_left fun hnever => { hnever with } }

/-- A timebase pulse keeps the scheduler's half (R113, R114). -/
theorem SchedulerInv.tbStep (h : SchedulerInv s) : SchedulerInv (tbStep s) := by
  obtain ⟨-, -, hstep⟩ | ⟨-, hpos, hstep⟩ | ⟨-, -, hstep⟩ | ⟨hs, -, hstep⟩ := tbStep_cases s <;> rw [hstep]
  case inl => exact h
  case inr.inl =>
    have hone : 1#20 ≤ s.tmr := Nat.one_le_iff_ne_zero.mpr fun hzero => hpos (BitVec.eq_of_toNat_eq hzero)
    refine h.setTmr ?_
    rw [BitVec.toNat_sub_of_le hone]
    exact lt_of_le_of_lt (Nat.sub_le _ _) h.tmr_lt
  case inr.inr.inl => exact (h.setTmr (timerReload_lt s)).startSend
  case inr.inr.inr =>
    exact { h.setTmr (timerReload_lt s) with
      sent := .inr (h.frame_of_send hs)
      pend_only_in_send := fun hne => absurd hs hne }

/-! ### The scheduler's commands -/

/-- A response is not part of the scheduler. -/
theorem SchedulerInv.respond (h : SchedulerInv s) (st : Status) (d : Word) : SchedulerInv (respond st d s) :=
  h.congr (by constructor <;> rfl)

/-- An event is under no condition. -/
theorem SchedulerInv.emit (h : SchedulerInv s) (e : Event) : SchedulerInv (emit e s) :=
  { h with sent := h.sent.imp_left fun hnever => { hnever with } }

/-- A vector published is under no condition until it is taken (R111). -/
theorem SchedulerInv.publish (h : SchedulerInv s) (v : ChanVec) : SchedulerInv { s with mbx := v, mbxDirty := true } :=
  { h with sent := h.sent.imp_left fun hnever => { hnever with } }

/-- The loop moved between the states that are not `SEND` (R120 to R122). -/
theorem SchedulerInv.setIdle (h : SchedulerInv s) (hs : s.sstate ≠ .send) {st : SState} (hst : st ≠ .send) :
    SchedulerInv { s with sstate := st } :=
  { h with
    sent := h.sent.imp_left fun hnever => { hnever with not_sending := hst }
    pend_only_in_send := fun _ => h.pend_only_in_send hs }

/-- A request latched in `SEND` (R121, R122). -/
theorem SchedulerInv.latch (h : SchedulerInv s) (hs : s.sstate = .send) (cancel fatal : Bool) :
    SchedulerInv { s with cancelPend := cancel, fatalPend := fatal } :=
  { h with sent := .inr (h.frame_of_send hs), pend_only_in_send := fun hne => absurd hs hne }

end

/-- The scheduler's commands keep its half and write nothing of the datapath. -/
theorem schedulerInv_of_exec {i : Instr} {s t : State}
    (hi : i = .schPub ∨ i = .schStart ∨ i = .schCancel ∨ i = .schPclose) (h : SchedulerInv s)
    (hexec : exec i s = .next t) : SchedulerInv t ∧ SameForDatapath s t := by
  have not_send_of_idle (hidle : s.sstate = .stopped ∨ s.sstate = .wait) : s.sstate ≠ .send := by
    rcases hidle with hs | hs <;> simp [hs]
  obtain rfl | rfl | rfl | rfl := hi
  · cases hexec
    generalize reverseVec s.rev s.ch = v
    exact ⟨(h.publish v).respond _ _, by constructor <;> rfl⟩
  · simp only [exec, execSchStart] at hexec
    split at hexec <;> cases hexec
    · rename_i hs
      have hloaded := h.setTmr (timerReload_lt s)
      exact ⟨(hloaded.setIdle (hs ▸ by decide) (by decide)).respond _ _, by constructor <;> rfl⟩
    · exact ⟨h.respond _ _, by constructor <;> rfl⟩
  · obtain ⟨hidle, rfl⟩ | ⟨hs, rfl⟩ | ⟨-, rfl⟩ | ⟨-, rfl⟩ := execSchCancel_cases hexec
    · exact ⟨((h.setIdle (not_send_of_idle hidle) (by decide)).emit _).respond _ _, by constructor <;> rfl⟩
    · exact ⟨(h.latch hs true s.fatalPend).respond _ _, by constructor <;> rfl⟩
    · exact ⟨h.respond _ _, by constructor <;> rfl⟩
    · exact ⟨h.respond _ _, by constructor <;> rfl⟩
  · obtain ⟨hidle, rfl⟩ | ⟨hs, rfl⟩ | ⟨-, rfl⟩ | ⟨-, rfl⟩ := execSchPclose_cases hexec
    · exact ⟨((h.setIdle (not_send_of_idle hidle) (by decide)).emit _).respond _ _, by constructor <;> rfl⟩
    · exact ⟨(h.latch hs s.cancelPend true).respond _ _, by constructor <;> rfl⟩
    · exact ⟨h.respond _ _, by constructor <;> rfl⟩
    · exact ⟨h.respond _ _, by constructor <;> rfl⟩

/-! ### Register writes (R56) -/

/-- The deadzone a write stores is legal (R17). -/
theorem toNat_deadzoneOperand_le (v : BitVec 16) : (deadzoneOperand v).toNat ≤ 4096 := by
  have hclamped := HostAccess.toNat_deadzoneOperand v
  omega

/-- The expo a write stores is legal (R17). -/
theorem toNat_expoOperand_le (v : BitVec 16) : (expoOperand v).toNat ≤ 16384 := by
  have hclamped := HostAccess.toNat_expoOperand v
  omega

/-- The rate a write stores is not 0 (R18). -/
theorem toNat_rateOperand_pos (v : BitVec 16) : 1 ≤ (rateOperand v).toNat := by
  unfold rateOperand
  split
  · exact le_refl 1
  · rename_i hv
    exact Nat.one_le_iff_ne_zero.mpr fun hzero => hv (BitVec.eq_of_toNat_eq hzero)

/-- A bound on every element of a vector holds after one is set within it. -/
theorem toNat_getElem_set_le {w bound : Nat} {v : Vector (BitVec w) 4} (h : ∀ a : Fin 4, v[a].toNat ≤ bound) (b : Fin 4)
    {x : BitVec w} (hx : x.toNat ≤ bound) (a : Fin 4) : (v.set b x)[a].toNat ≤ bound := by
  rw [Fin.getElem_fin, Vector.getElem_set]
  split
  · exact hx
  · exact h a

/-- A profile in its ranges keeps the datapath's half (R17). -/
theorem DatapathInv.configure {s : State} (h : DatapathInv s) {dz : Vector (BitVec 13) 4} {expo : Vector (BitVec 15) 4}
    {tdz : BitVec 13} (hdz : ∀ a : Fin 4, dz[a].toNat ≤ 4096) (hexpo : ∀ a : Fin 4, expo[a].toNat ≤ 16384)
    (htdz : tdz.toNat ≤ 4096) (rev : BitVec 16) : DatapathInv { s with dz := dz, expo := expo, tdz := tdz, rev := rev } :=
  { h with dz_le := hdz, expo_le := hexpo, tdz_le := htdz, decoded := fun hvalid => { h.decoded hvalid with } }

/-- A rate of at least 1 keeps the scheduler's half, whatever the thresholds and events are (R18). -/
theorem SchedulerInv.configure {s : State} (h : SchedulerInv s) {rate : BitVec 16} (hrate : 1 ≤ rate.toNat)
    (failThr statIvl : BitVec 16) (evt : BitVec 5) :
    SchedulerInv { s with rate := rate, failThr := failThr, statIvl := statIvl, evt := evt } :=
  { h with rate_pos := hrate, sent := h.sent.imp_left fun hnever => { hnever with } }

/-- A register write keeps the invariant: what it stores is in the register's range. -/
theorem inv_of_regWrite {reg : Reg} {v : BitVec 16} {s t : State} (h : Inv s) (hwrite : regWrite reg v s = some t) :
    Inv t := by
  obtain ⟨hdata, hsched⟩ := inv_iff.mp h
  have hdz := hdata.dz_le
  have hexpo := hdata.expo_le
  have htdz := hdata.tdz_le
  have hrate := hsched.rate_pos
  rw [inv_iff]
  obtain ⟨a, -, rfl⟩ | ⟨a, -, rfl⟩ | ⟨-, rfl⟩ | ⟨-, rfl⟩ | ⟨-, rfl⟩ | ⟨-, rfl⟩ | ⟨-, rfl⟩ | ⟨-, rfl⟩ | ⟨-, rfl⟩ :=
    regWrite_cases hwrite
  · have hset := toNat_getElem_set_le hdz a (toNat_deadzoneOperand_le v)
    exact ⟨hdata.configure hset hexpo htdz s.rev, hsched.congr (by constructor <;> rfl)⟩
  · have hset := toNat_getElem_set_le hexpo a (toNat_expoOperand_le v)
    exact ⟨hdata.configure hdz hset htdz s.rev, hsched.congr (by constructor <;> rfl)⟩
  · exact ⟨hdata.configure hdz hexpo (toNat_deadzoneOperand_le v) s.rev, hsched.congr (by constructor <;> rfl)⟩
  · exact ⟨hdata.configure hdz hexpo htdz v, hsched.congr (by constructor <;> rfl)⟩
  · exact ⟨hdata.congr (by constructor <;> rfl),
      hsched.configure (toNat_rateOperand_pos v) s.failThr s.statIvl s.evt⟩
  · exact ⟨hdata.congr (by constructor <;> rfl), hsched.configure hrate v s.statIvl s.evt⟩
  · exact ⟨hdata.congr (by constructor <;> rfl), hsched.configure hrate s.failThr v s.evt⟩
  · exact ⟨hdata.congr (by constructor <;> rfl), hsched.congr (by constructor <;> rfl)⟩
  · exact ⟨hdata.congr (by constructor <;> rfl), hsched.configure hrate s.failThr s.statIvl _⟩

/-! ### Every step -/

/-- Every command keeps the invariant. -/
theorem inv_of_exec {i : Instr} {s t : State} (h : Inv s) (hexec : exec i s = .next t) : Inv t := by
  obtain ⟨hdata, hsched⟩ := inv_iff.mp h
  cases i with
  | nop =>
    cases hexec
    exact inv_respond h _ _
  | reset =>
    cases hexec
    exact inv_respond (inv_resetBlock s) _ _
  | rd r =>
    obtain ⟨st, d, hrd⟩ := HostAccess.execRd_eq_respond r s
    cases hrd.symm.trans hexec
    exact inv_respond h _ _
  | rdm sp off =>
    obtain ⟨st, d, hrdm⟩ := HostAccess.execRdm_eq_respond sp off s
    cases hrdm.symm.trans hexec
    exact inv_respond h _ _
  | wr r v =>
    obtain ⟨-, rfl⟩ | ⟨_, -, -, rfl⟩ | ⟨_, u, -, hu, rfl⟩ := execWr_cases hexec
    · exact inv_respond h _ _
    · exact inv_respond h _ _
    · exact inv_respond (inv_of_regWrite h hu) _ _
  | schPub | schStart | schCancel | schPclose =>
    obtain ⟨hsched', same⟩ := schedulerInv_of_exec (by simp) hsched hexec
    exact inv_iff.mpr ⟨hdata.congr same, hsched'⟩
  | crcInit | crcUpd | chSet | chBtn | enc | rxClr | rxPush | dec | unpk | shpAx | shpTrg =>
    exact inv_iff.mpr ⟨datapathInv_of_isDatapath rfl hdata hexec,
      hsched.congr (HostAccess.sameForScheduler_of_isDatapath rfl hexec)⟩

/-- Settles O9: a command keeps each half of the invariant, the environment's steps keep the scheduler's half and write nothing
of the datapath, and a reset establishes both. -/
theorem stepKeepsInv : Obligations.StepKeepsInv := by
  unfold Obligations.StepKeepsInv
  intro s t h hstep
  obtain ⟨-, rfl⟩ | ⟨rest, -, rfl⟩ | ⟨ok, rest, -, rfl⟩ | ⟨rest, -, rfl⟩ | ⟨w, rest, -, -, rfl⟩ |
    ⟨w, rest, -, -, rfl⟩ | ⟨w, rest, i, -, -, hexec⟩ := step_cases hstep
  · exact h
  · exact inv_resetBlock _
  · obtain ⟨hdata, hsched⟩ := inv_iff.mp (inv_inputs h rest)
    exact inv_iff.mpr ⟨hdata.congr (sameForDatapath_txrStep ok _), hsched.txrStep ok⟩
  · obtain ⟨hdata, hsched⟩ := inv_iff.mp (inv_inputs h rest)
    exact inv_iff.mpr ⟨hdata.congr (sameForDatapath_tbStep _), hsched.tbStep⟩
  · exact inv_respond (inv_inputs h rest) _ _
  · exact inv_respond (inv_inputs h rest) _ _
  · exact inv_of_exec (inv_inputs h rest) hexec

end Sys2Proof.Invariant
end

section
/-! SUPPORT. The laws of the CRC (`41_crc.md`): streaming a buffer, and the changes of one byte that the CRC detects. The table
step can be undone in either argument, so two registers that differ once differ for ever after. -/

namespace Sys2Proof.CrcLaws

open Sys2Proof.Machine Sys2Proof.Safety

/-! ### Streaming (R64, R65) -/

/-- Feeding bytes runs the table step over them and changes nothing else but the trace. -/
theorem feedCrc_eq (bs : List Byte) (s : State) :
    ∃ outs, feedCrc bs s = .next { s with crc := bs.foldl crcStepTable s.crc, trace := outs } := by
  induction bs generalizing s with
  | nil => exact ⟨s.trace, rfl⟩
  | cons b bs ih => exact ih _

/-- Settles O20: `CRC.INIT` sets the register to what `crc8` starts from, and the bytes fed run the same fold. -/
theorem streamingCrcEqualsBufferCrc : Obligations.StreamingCrcEqualsBufferCrc := by
  unfold Obligations.StreamingCrcEqualsBufferCrc
  intro bs s
  obtain ⟨outs, hfeed⟩ := feedCrc_eq bs (respond .ok 0#32 { s with crc := crcInitial })
  exact ⟨_, _, rfl, hfeed, rfl⟩

/-! ### Undoing the table step -/

/-- The shift of the CRC register undone: bit 0 tells whether the polynomial was added (R60). -/
def crcUnshift (c : Byte) : Byte := if c.getLsbD 0 then ((c ^^^ Config.crcPoly) >>> 1) ||| 0x80#8 else c >>> 1

/-- The shift of the CRC register loses nothing: the polynomial has bit 0. -/
theorem crcUnshift_crcShift (c : Byte) : crcUnshift (crcShift c) = c := by
  revert c
  decide

/-- Eight shifts lose nothing. -/
theorem repeat_crcShift_injective (n : Nat) : Function.Injective (Nat.repeat crcShift n) := by
  induction n with
  | zero => exact fun _ _ h => h
  | succ n ih => exact fun c d h => ih (Function.LeftInverse.injective crcUnshift_crcShift h)

/-- No two entries of the table are equal (R61). -/
theorem crcTab_injective : Function.Injective crcTab := by
  intro a b h
  rw [HostAccess.crcTab_eq_crcStepBitwise, HostAccess.crcTab_eq_crcStepBitwise] at h
  simpa using repeat_crcShift_injective 8 h

/-- The table step tells two registers apart. -/
theorem crcStepTable_left_inj {c d b : Byte} : crcStepTable c b = crcStepTable d b ↔ c = d :=
  crcTab_injective.eq_iff.trans (BitVec.xor_left_inj b)

/-- The table step tells two bytes apart. -/
theorem crcStepTable_right_inj {c b d : Byte} : crcStepTable c b = crcStepTable c d ↔ b = d :=
  crcTab_injective.eq_iff.trans (BitVec.xor_right_inj c)

/-- Registers that differ still differ after the same bytes. -/
theorem foldl_crcStepTable_left_inj {c d : Byte} (bs : List Byte) :
    bs.foldl crcStepTable c = bs.foldl crcStepTable d ↔ c = d := by
  induction bs generalizing c d with
  | nil => rfl
  | cons b bs ih => exact ih.trans crcStepTable_left_inj

/-! ### Detection (R63, R66) -/

/-- A list followed by its CRC has CRC 0. -/
theorem crc8_append_crc8 (bs : List Byte) : crc8 (bs ++ [crc8 bs]) = 0x00#8 := by
  rw [crc8_concat, crcStepTable_self]

/-- A list with one byte after it has CRC 0 only if the byte is the list's CRC. -/
theorem crc8_concat_eq_zero_iff {bs : List Byte} {b : Byte} : crc8 (bs ++ [b]) = 0x00#8 ↔ b = crc8 bs := by
  rw [crc8_concat, ← crcStepTable_self (crc8 bs)]
  exact crcStepTable_right_inj

/-- Changing one byte changes the CRC. -/
theorem crc8_modify_ne {bs : List Byte} {k : Nat} {f : Byte → Byte} (hk : k < bs.length) (hf : ∀ b, f b ≠ b) :
    crc8 (bs.modify k f) ≠ crc8 bs := by
  have hsplit : bs = bs.take k ++ bs[k] :: bs.drop (k + 1) := by simp
  have hmodify : bs.modify k f = bs.take k ++ f bs[k] :: bs.drop (k + 1) := by
    rw [List.modify_eq_take_cons_drop hk]
  intro h
  rw [hmodify] at h
  nth_rewrite 4 [hsplit] at h
  rw [crc8_append, crc8_append, List.foldl_cons, List.foldl_cons, foldl_crcStepTable_left_inj,
    crcStepTable_right_inj] at h
  exact hf _ h

/-- Flipping a bit of a byte changes the byte. -/
theorem xor_bit_ne {j : Nat} (hj : j < 8) (b : Byte) : b ^^^ (1#8 <<< j) ≠ b := by
  have hbit : 1#8 <<< j ≠ 0#8 := by interval_cases j <;> decide
  intro h
  exact hbit ((BitVec.xor_right_inj b).mp (h.trans BitVec.xor_zero.symm))

/-- Settles O21: the CRC of a list followed by its CRC is 0, and a list that differs from it in one byte has another. -/
theorem crcDetectsEverySingleBitChange : Obligations.CrcDetectsEverySingleBitChange := by
  unfold Obligations.CrcDetectsEverySingleBitChange
  refine ⟨crc8_append_crc8, fun _ => rfl, fun bs k j hk hj => ?_⟩
  have hlength : k < (bs ++ [crc8 bs]).length := by
    rw [List.length_append]
    exact Nat.lt_succ_of_le hk
  rw [← crc8_append_crc8 bs]
  exact crc8_modify_ne hlength (xor_bit_ne hj)

end Sys2Proof.CrcLaws
end

section
/-! SUPPORT. The laws of the codec (`42_codec.md` sections 2 and 3): packer and unpacker undo each other bit by bit, a frame decodes
to what it was made of, and where each change of one bit is caught. -/

namespace Sys2Proof.CodecLaws

open Sys2Proof.Machine Sys2Proof.Safety

/-! ### The packer and the unpacker (R72, R73) -/

/-- Bit `j` of channel `i` of an unpacked payload is bit `11i + j` of the payload's stream. -/
theorem getLsbD_unpack (p : List Byte) (i : Fin 16) {j : Nat} (hj : j < 11) :
    ((unpack p)[i]).getLsbD j = (p.getD ((11 * i.val + j) / 8) 0#8).getLsbD ((11 * i.val + j) % 8) := by
  have hi : i.val < 16 := i.isLt
  have hbyte : (11 * i.val + j) / 8 < 22 := by omega
  have hchan : (unpack p)[i] = BitVec.ofNat 11 (unpackStream p >>> (11 * i.val)) := by simp [unpack]
  rw [hchan, BitVec.getLsbD_ofNat, Nat.testBit_shiftRight, testBit_unpackStream, decide_eq_true hj, decide_eq_true hbyte,
    Bool.true_and, Bool.true_and]

/-- Unpacking a packed vector gives the vector. -/
theorem unpack_pack (v : ChanVec) : unpack (pack v) = v := by
  refine Vector.ext fun i hi => BitVec.eq_of_getLsbD_eq fun j hj => ?_
  have hchan : (11 * i + j) / 11 = i := by omega
  have hbit : (11 * i + j) % 11 = j := by omega
  have hunpack := getLsbD_unpack (pack v) ⟨i, hi⟩ hj
  rw [CodecUnit.getLsbD_getD_pack v (by simp only; omega), hchan, hbit] at hunpack
  simpa [hi] using hunpack

/-- Packing an unpacked payload gives its first 22 bytes. -/
theorem pack_unpack {p : List Byte} (hp : 22 ≤ p.length) : pack (unpack p) = p.take 22 := by
  have hlength : (p.take 22).length = 22 := by simp [hp]
  refine List.ext_getElem ((length_pack _).trans hlength.symm) fun k hk hk' => BitVec.eq_of_getLsbD_eq fun j hj => ?_
  have hk22 : k < 22 := hlength ▸ hk'
  have hbyte : (8 * k + j) / 8 = k := by omega
  have hbit : (8 * k + j) % 8 = j := by omega
  have hchan : (8 * k + j) / 11 < 16 := by omega
  have hpack := CodecUnit.getLsbD_getD_pack (unpack p) (m := 8 * k + j) (by omega)
  have hunpack := getLsbD_unpack p ⟨(8 * k + j) / 11, hchan⟩ (j := (8 * k + j) % 11) (Nat.mod_lt _ (by decide))
  simp only [Nat.div_add_mod, hbyte, hbit] at hpack hunpack
  have hget : (unpack p)[(8 * k + j) / 11]?.getD 0#11 = (unpack p)[(⟨(8 * k + j) / 11, hchan⟩ : Fin 16)] := by simp [hchan]
  rw [hget, hunpack, List.getD_eq_getElem _ _ hk, List.getD_eq_getElem _ _ (by omega)] at hpack
  rw [hpack, List.getElem_take]

/-- Three bytes as a number of 24 bits, the first byte lowest. -/
theorem toNat_append_bytes (low mid high : Byte) :
    (high ++ mid ++ low).toNat = low.toNat + mid.toNat * 2 ^ 8 + high.toNat * 2 ^ 16 := by
  have hlow : low.toNat < 2 ^ 8 := low.isLt
  have hmid : mid.toNat < 2 ^ 8 := mid.isLt
  rw [BitVec.toNat_append, BitVec.toNat_append, ← Nat.shiftLeft_add_eq_or_of_lt hlow,
    ← Nat.shiftLeft_add_eq_or_of_lt hmid, Nat.shiftLeft_eq, Nat.shiftLeft_eq]
  ring

/-- A bit of three bytes laid end to end is a bit of one of them. -/
theorem getLsbD_append_bytes (low mid high : Byte) {m : Nat} (hm : m < 24) :
    (high ++ mid ++ low).getLsbD m = ([low, mid, high].getD (m / 8) 0#8).getLsbD (m % 8) := by
  obtain ⟨q, r, hr, rfl⟩ : ∃ q r, r < 8 ∧ m = 8 * q + r := ⟨m / 8, m % 8, Nat.mod_lt m (by decide), by omega⟩
  have hdiv : (8 * q + r) / 8 = q := by omega
  have hmod : (8 * q + r) % 8 = r := by omega
  have hq : q < 3 := by omega
  rw [hdiv, hmod, BitVec.getLsbD_append, BitVec.getLsbD_append]
  interval_cases q
  · rw [if_pos (by omega)]
    simp
  · rw [if_neg (by omega), if_pos (by omega), show 8 * 1 + r - 8 = r by omega]
    rfl
  · rw [if_neg (by omega), if_neg (by omega), show 8 * 2 + r - 8 - 8 = r by omega]
    rfl

/-- A channel comes from the three bytes it may span, shifted and masked (the formula of section 2). -/
theorem toNat_unpack (p : List Byte) (i : Fin 16) :
    ((unpack p)[i]).toNat =
      (((p.getD (11 * i.val / 8) 0#8).toNat + (p.getD (11 * i.val / 8 + 1) 0#8).toNat * 2 ^ 8 +
        ((p.take 22).getD (11 * i.val / 8 + 2) 0#8).toNat * 2 ^ 16) / 2 ^ (11 * i.val % 8)) % 2 ^ 11 := by
  have hi : i.val < 16 := i.isLt
  rw [← toNat_append_bytes, ← Nat.shiftRight_eq_div_pow]
  refine Nat.eq_of_testBit_eq fun j => ?_
  rw [Nat.testBit_mod_two_pow, Nat.testBit_shiftRight, BitVec.testBit_toNat, BitVec.testBit_toNat]
  by_cases hj : j < 11
  · obtain ⟨q, hq⟩ : ∃ q, q = (11 * i.val % 8 + j) / 8 := ⟨_, rfl⟩
    have hq3 : q < 3 := by omega
    have hbyte : (11 * i.val + j) / 8 = 11 * i.val / 8 + q := by omega
    have hbit : (11 * i.val + j) % 8 = (11 * i.val % 8 + j) % 8 := by omega
    have hinside : 11 * i.val / 8 + q < 22 := by omega
    rw [getLsbD_unpack p i hj, decide_eq_true hj, Bool.true_and, getLsbD_append_bytes _ _ _ (by omega), hbyte, hbit, ← hq]
    interval_cases q
    · rfl
    · rfl
    · simp [List.getD, hinside]
  · rw [BitVec.getLsbD_of_ge _ _ (Nat.not_lt.mp hj), decide_eq_false hj, Bool.false_and]

/-- Settles O23: both ways are read bit by bit off the stream, and so is the three-byte formula. -/
theorem packAndUnpackAreInverse : Obligations.PackAndUnpackAreInverse := by
  unfold Obligations.PackAndUnpackAreInverse
  exact ⟨unpack_pack, fun _ hp => pack_unpack hp, fun p i _ => toNat_unpack p i⟩

/-! ### The round trip of a frame (R74, R75) -/

/-- The frame as its parts, laid end to end. -/
theorem frame_eq (v : ChanVec) : frame v = 0xC8#8 :: 0x18#8 :: 0x16#8 :: (pack v ++ crc8 (0x18#8 :: 0x16#8 :: pack v) :: []) :=
  rfl

/-- Settles O26: the frame check finds the parts the frame was laid from, and the payload unpacks to the vector. -/
theorem frameRoundTrip : Obligations.FrameRoundTrip := by
  unfold Obligations.FrameRoundTrip
  intro v
  have hcheck := CodecUnit.decodeFrame_of_complete (len := 0x18#8) (type := 0x16#8) (payload := pack v)
    (crc := crc8 (0x18#8 :: 0x16#8 :: pack v)) [] (by rw [length_pack]; rfl) (by decide)
  rw [if_pos rfl, length_pack, ← frame_eq] at hcheck
  rw [CodecUnit.take_drop_three_frame, unpack_pack]
  exact ⟨hcheck, rfl⟩

/-! ### Single-bit changes of a frame (R75) -/

/-- A change of the sync byte is found by the second check. -/
theorem err_of_sync_changed (v : ChanVec) {f : Byte → Byte} (hf : f 0xC8#8 ≠ 0xC8#8) :
    (decodeFrame ((frame v).modify 0 f)).err = .sync := by
  have hbuf : (frame v).modify 0 f = f 0xC8#8 :: (frame v).tail := rfl
  have hlength : (f 0xC8#8 :: (frame v).tail).length = 26 := congrArg Nat.succ (by simp)
  rw [hbuf, CodecUnit.decodeFrame_of_not_sync (buf := f 0xC8#8 :: (frame v).tail) (by omega) hf, failed_err]

/-- After a change of the length byte the frame check goes by the new length. -/
theorem err_of_length_changed (v : ChanVec) {f : Byte → Byte} {len : Byte} (hlen : f 0x18#8 = len) :
    (decodeFrame ((frame v).modify 1 f)).err =
      if len.toNat < 2 ∨ 62 < len.toNat then .len
      else if 24 < len.toNat then .trunc
      else if crc8 (len :: ((frame v).drop 2).take (len.toNat - 1)) = (frame v).getD (1 + len.toNat) 0#8 then .ok
      else .crc := by
  have hbuf : (frame v).modify 1 f = 0xC8#8 :: len :: (frame v).drop 2 := by
    subst hlen
    rfl
  have hlength : (0xC8#8 :: len :: (frame v).drop 2).length = 26 := by simp
  rw [hbuf, CodecUnit.decodeFrame_of_sync (len := len) (by omega) rfl rfl, hlength]
  split
  · rfl
  rename_i hrange
  obtain ⟨n, hn⟩ : ∃ n, len.toNat = n + 1 := ⟨len.toNat - 1, by omega⟩
  have hcovered : ((0xC8#8 :: len :: (frame v).drop 2).drop 1).take (n + 1) = len :: ((frame v).drop 2).take n := rfl
  have hcrc : (0xC8#8 :: len :: (frame v).drop 2).getD (1 + (n + 1)) 0#8 = (frame v).getD (1 + (n + 1)) 0#8 := by
    rw [show 1 + (n + 1) = n + 1 + 1 by omega]
    rfl
  rw [hn, hcovered, hcrc, Nat.add_sub_cancel]
  by_cases htrunc : 24 < n + 1
  · rw [if_pos htrunc, if_pos (by omega), failed_err]
  · rw [if_neg htrunc, if_neg (by omega), apply_ite DecodeResult.err, failed_err]

/-- A change of a byte after the length byte is found by the last check: the covered bytes and the CRC byte no longer have CRC 0
together. -/
theorem err_of_later_changed (v : ChanVec) {f : Byte → Byte} (hf : ∀ b, f b ≠ b) {k : Nat} (hlow : 2 ≤ k) (hhigh : k < 26) :
    (decodeFrame ((frame v).modify k f)).err = .crc := by
  obtain ⟨n, rfl⟩ : ∃ n, k = n + 2 := ⟨k - 2, by omega⟩
  obtain ⟨body, hbody⟩ : ∃ body, body = (frameBody v ++ [crc8 (frameBody v)]).modify (n + 1) f := ⟨_, rfl⟩
  have hbuf : (frame v).modify (n + 2) f = 0xC8#8 :: body := by
    rw [hbody]
    rfl
  have hlength : body.length = 25 := by simp [hbody]
  have hlen : body.getD 0 0#8 = 0x18#8 := by
    rw [hbody]
    rfl
  have hsplit : body = body.take 24 ++ [body.getD 24 0#8] := by
    rw [List.getD_eq_getElem _ _ (by omega), List.take_concat_get' _ _ (by omega), List.take_of_length_le hlength.le]
  have hchanged : crc8 body ≠ 0x00#8 := by
    rw [hbody, ← CrcLaws.crc8_append_crc8 (frameBody v)]
    exact CrcLaws.crc8_modify_ne (by simp; omega) hf
  have hcrc : crc8 (body.take 24) ≠ body.getD 24 0#8 := by
    rw [hsplit] at hchanged
    exact fun heq => hchanged (CrcLaws.crc8_concat_eq_zero_iff.mpr heq.symm)
  have hlength' : (0xC8#8 :: body).length = 26 := congrArg Nat.succ hlength
  rw [hbuf, CodecUnit.decodeFrame_of_sync (len := 0x18#8) (by omega) rfl hlen, hlength', if_neg (by decide),
    if_neg (by decide)]
  exact congrArg DecodeResult.err (if_neg hcrc)

/-- Settles O27: a change is caught by the first check that reads the byte it is in; in the length byte the new length of each of the
eight changes decides. -/
theorem singleBitFlipOfFrameIsCaught : Obligations.SingleBitFlipOfFrameIsCaught := by
  unfold Obligations.SingleBitFlipOfFrameIsCaught
  intro v j hj
  have hflip := CrcLaws.xor_bit_ne hj
  refine ⟨err_of_sync_changed v (hflip _), ?len, ?trunc, ?shorter, ?shortest,
    fun k hlow hhigh => err_of_later_changed v hflip hlow hhigh⟩
  case len =>
    rintro (rfl | rfl)
    · exact err_of_length_changed v (len := 0x58#8) rfl
    · exact err_of_length_changed v (len := 0x98#8) rfl
  case trunc =>
    rintro (rfl | rfl | rfl | rfl)
    · exact err_of_length_changed v (len := 0x19#8) rfl
    · exact err_of_length_changed v (len := 0x1A#8) rfl
    · exact err_of_length_changed v (len := 0x1C#8) rfl
    · exact err_of_length_changed v (len := 0x38#8) rfl
  case shorter =>
    rintro rfl hcrc
    exact (err_of_length_changed v (len := 0x10#8) rfl).trans (if_neg hcrc)
  case shortest =>
    rintro rfl hcrc
    exact (err_of_length_changed v (len := 0x08#8) rfl).trans (if_neg hcrc)

end Sys2Proof.CodecLaws
end

section
/-! SUPPORT. The axis curve (`43_shaper.md` sections 3 and 4): its formula, its laws, and that it never falls. -/

namespace Sys2Proof.AxisCurve

open Sys2Proof.Machine Sys2Proof.Safety

/-! ### The curve of a magnitude -/

/-- A rescaled magnitude stays within full travel. -/
theorem dzscale_le {m : Nat} (dz : Nat) (hm : m ≤ 16384) : dzscale m dz ≤ 16384 :=
  (ShaperUnit.dzscale_le_self hm).trans hm

/-- The blend does not fall as both of its arguments rise (R93). -/
theorem blend_mono {r r' c c' : Nat} (e : Nat) (hr : r ≤ r') (hc : c ≤ c') : blend r c e ≤ blend r' c' e := by
  have hlinear : (16384 - e) * r ≤ (16384 - e) * r' := Nat.mul_le_mul_left _ hr
  have hcubic : e * c ≤ e * c' := Nat.mul_le_mul_left _ hc
  rw [ShaperUnit.blend_eq, ShaperUnit.blend_eq]
  exact Nat.div_le_div_right (by omega)

/-- The curve of a magnitude does not fall as the magnitude rises. -/
theorem shapeMagnitude_mono {m m' : Nat} (dz e : Nat) (h : m ≤ m') (hm' : m' ≤ 16384) :
    shapeMagnitude m dz e ≤ shapeMagnitude m' dz e := by
  have hrescaled : dzscale m dz ≤ dzscale m' dz := ShaperUnit.dzscale_mono dz h
  exact blend_mono e hrescaled (ShaperUnit.cube_mono hrescaled (dzscale_le dz hm'))

/-- Full magnitude is kept (R103, law (a)). -/
theorem shapeMagnitude_full {dz e : Nat} (hdz : dz ≤ 4096) (he : e ≤ 16384) : shapeMagnitude 16384 dz e = 16384 := by
  have hcube : cube 16384 = 16384 := ShaperUnit.cube_knot (j := 64) (le_refl 64)
  rw [shapeMagnitude, ShaperUnit.dzscale_full (by omega), hcube, ShaperUnit.blend_self he]

/-! ### The signed curve -/

/-- The sample of the statement is the saturated sample. -/
theorem axisSample_eq (x : BitVec 16) : axisSample x = min (max x.toInt (-16384)) 16384 := rfl

/-- The saturated sample has the sample's sign. -/
theorem axisSample_neg_iff (x : BitVec 16) : axisSample x < 0 ↔ x.toInt < 0 := by
  rw [axisSample_eq]
  omega

/-- The signed curve is the curve of the magnitude with the sign reattached (R94). -/
theorem shapeSigned_eq (xs : Int) (dz e : Nat) :
    shapeSigned xs dz e = (if xs < 0 then -1 else 1) * (shapeMagnitude xs.natAbs dz e : Int) := by
  unfold shapeSigned
  split
  · exact (Int.neg_one_mul _).symm
  · exact (Int.one_mul _).symm

/-- The signed curve is odd (R103, law (c)). -/
theorem shapeSigned_neg (xs : Int) (dz e : Nat) : shapeSigned (-xs) dz e = -shapeSigned xs dz e := by
  obtain hneg | rfl | hpos := lt_trichotomy xs 0
  · rw [shapeSigned, shapeSigned, if_neg (by omega), if_pos hneg, Int.natAbs_neg, Int.neg_neg]
  · have hzero : shapeMagnitude 0 dz e = 0 := ShaperUnit.shapeMagnitude_of_le e (Nat.zero_le dz)
    simp [shapeSigned, hzero]
  · rw [shapeSigned, shapeSigned, if_pos (by omega), if_neg (by omega), Int.natAbs_neg]

/-- The signed curve does not fall: below 0 it mirrors the rising curve of the magnitude, and 0 lies between. -/
theorem shapeSigned_mono {xs xs' : Int} (dz e : Nat) (h : xs ≤ xs') (hlow : -16384 ≤ xs) (hhigh : xs' ≤ 16384) :
    shapeSigned xs dz e ≤ shapeSigned xs' dz e := by
  unfold shapeSigned
  split <;> split
  · have hmono : shapeMagnitude xs'.natAbs dz e ≤ shapeMagnitude xs.natAbs dz e :=
      shapeMagnitude_mono dz e (by omega) (by omega)
    omega
  · omega
  · omega
  · have hmono : shapeMagnitude xs.natAbs dz e ≤ shapeMagnitude xs'.natAbs dz e :=
      shapeMagnitude_mono dz e (by omega) (by omega)
    omega

/-- Settles O37: the curve is the signed curve of the saturated sample, and each law is the law of the magnitude's curve. -/
theorem axisCurveLaws : Obligations.AxisCurveLaws := by
  unfold Obligations.AxisCurveLaws
  intro dz e hdz he
  have hfull := shapeMagnitude_full hdz he
  have hodd (m : Nat) (hm : m ≤ 16384) :
      shapeAxis (tc16 (-(m : Int))) dz e = -shapeAxis (tc16 (m : Int)) dz e := by
    rw [shapeAxis, shapeAxis, ShaperUnit.axisSample_tc16 (by omega) (by omega),
      ShaperUnit.axisSample_tc16 (by omega) (by omega), shapeSigned_neg]
  have htop : shapeAxis 16384#16 dz e = 16384 := by
    have hsample : axisSample 16384#16 = 16384 := by decide
    rw [shapeAxis, hsample, shapeSigned_eq, if_neg (by decide), Int.one_mul]
    exact congrArg Nat.cast hfull
  refine ⟨htop, ?bottom, fun x hin => ?deadzone, hodd, fun x => ?bounded, fun x => ?formula, fun x => ?linear, fun x => ?cubic⟩
  case bottom => exact (hodd 16384 (le_refl _)).trans (congrArg Neg.neg htop)
  case deadzone =>
    have hzero : shapeAxis x dz e = 0 := by
      rw [← Int.natAbs_eq_zero, ShaperUnit.natAbs_shapeAxis]
      exact ShaperUnit.shapeMagnitude_of_le e hin
    exact ⟨hzero, by rw [hzero]; rfl⟩
  case bounded =>
    rw [ShaperUnit.natAbs_shapeAxis]
    exact ShaperUnit.shapeMagnitude_le_dzscale (ShaperUnit.natAbs_axisSample_le x) he
  case formula =>
    refine ⟨_, rfl, ?_⟩
    rw [shapeAxis, shapeSigned_eq]
    simp only [axisSample_neg_iff]
    rfl
  case linear =>
    rw [ShaperUnit.natAbs_shapeAxis, shapeMagnitude, ShaperUnit.blend_linear]
    rfl
  case cubic =>
    rw [ShaperUnit.natAbs_shapeAxis, shapeMagnitude, ShaperUnit.blend_cubic]
    rfl

/-- Settles O38: saturation keeps the order of samples, and the signed curve keeps the order of saturated samples. -/
theorem axisCurveIsMonotone : Obligations.AxisCurveIsMonotone := by
  unfold Obligations.AxisCurveIsMonotone
  intro dz e x x' _ _ hle
  have hlow := ShaperUnit.natAbs_axisSample_le x
  have hhigh := ShaperUnit.natAbs_axisSample_le x'
  have hsaturated : axisSample x ≤ axisSample x' := by
    rw [axisSample_eq, axisSample_eq]
    omega
  exact shapeSigned_mono dz e hsaturated (by omega) (by omega)

end Sys2Proof.AxisCurve
end

section
/-! SUPPORT. The byte memory's canonical form (log entry 5): what a canonical buffer reads as determines it. -/

namespace Sys2Proof.MemoryForm

open Sys2Proof.Machine

/-- A rising list with a first entry: the entry is listed rightly, and the rest rises from above it. -/
theorem risesFrom_cons_iff {lo k : Nat} {v : Byte} {m : Memory} :
    Memory.risesFrom lo ((k, v) :: m) = true ↔ lo ≤ k ∧ v ≠ Memory.unlisted ∧ Memory.risesFrom (k + 1) m = true := by
  simp [Memory.risesFrom, and_assoc]

/-- The first entry is read at its index. -/
theorem read_cons_self (k : Nat) (v : Byte) (m : Memory) : Memory.read ((k, v) :: m) k = v := if_pos rfl

/-- At any other index the rest is read. -/
theorem read_cons_of_ne {k a : Nat} (h : k ≠ a) (v : Byte) (m : Memory) : Memory.read ((k, v) :: m) a = m.read a := if_neg h

/-- A list that reads like one with a first entry does not rise from above that entry. -/
theorem le_of_read_eq {k lo : Nat} {v : Byte} {m m' : Memory} (hv : v ≠ Memory.unlisted)
    (hm' : Memory.risesFrom lo m' = true) (h : Memory.read m' k = Memory.read ((k, v) :: m) k) : lo ≤ k := by
  by_contra hlt
  rw [read_cons_self, Memory.read_of_risesFrom hm' (Nat.not_le.mp hlt)] at h
  exact hv h.symm

/-- Rising lists that read alike are equal: their first entries have the lowest listed index of both, and so on. -/
theorem eq_of_risesFrom {lo lo' : Nat} {m m' : Memory} (hm : Memory.risesFrom lo m = true)
    (hm' : Memory.risesFrom lo' m' = true) (h : ∀ a, m.read a = m'.read a) : m = m' := by
  induction m generalizing lo lo' m' with
  | nil =>
    cases m' with
    | nil => rfl
    | cons cell' m' =>
      obtain ⟨-, hv', -⟩ := risesFrom_cons_iff.mp hm'
      exact absurd (le_of_read_eq (lo := cell'.1 + 1) hv' rfl (h _)) (Nat.not_succ_le_self _)
  | cons cell m ih =>
    obtain ⟨k, v⟩ := cell
    obtain ⟨-, hv, hrest⟩ := risesFrom_cons_iff.mp hm
    cases m' with
    | nil => exact absurd (le_of_read_eq (lo := k + 1) hv rfl (h k).symm) (Nat.not_succ_le_self _)
    | cons cell' m' =>
      obtain ⟨k', v'⟩ := cell'
      obtain ⟨-, hv', hrest'⟩ := risesFrom_cons_iff.mp hm'
      have hle : k ≤ k' := le_of_read_eq hv' (risesFrom_cons_iff.mpr ⟨le_refl k, hv, hrest⟩) (h k')
      have hge : k' ≤ k := le_of_read_eq hv (risesFrom_cons_iff.mpr ⟨le_refl k', hv', hrest'⟩) (h k).symm
      obtain rfl : k = k' := le_antisymm hle hge
      have hvalue := h k
      rw [read_cons_self, read_cons_self] at hvalue
      have hreads (a : Nat) : Memory.read m a = Memory.read m' a := by
        by_cases ha : k = a
        · rw [Memory.read_of_risesFrom hrest (by omega), Memory.read_of_risesFrom hrest' (by omega)]
        · rw [← read_cons_of_ne ha v m, h a, read_cons_of_ne ha]
      rw [hvalue, ih hrest hrest' hreads]

/-- Settles O60: canonical buffers are rising lists. -/
theorem canonicalBuffersReadingAlikeAreEqual : Obligations.CanonicalBuffersReadingAlikeAreEqual := by
  unfold Obligations.CanonicalBuffersReadingAlikeAreEqual
  exact fun _ _ hm hm' h => eq_of_risesFrom hm hm' h

end Sys2Proof.MemoryForm
end
